-- ==== Sys2Proof/Word.lean ====
section
/-! DEFINITION. The word types of the CHIP-8 core: its cells are bytes, its addresses and instruction words 16 bits (R5, R11, R13, R14, R60). -/

namespace Sys2Proof

/-- One cell of `MEM`, one V register, one timer (R11, R17, R40). -/
abbrev Byte := BitVec 8

/-- An instruction word, `I`, `PC` or a stack entry (R13, R14, R15, R60). -/
abbrev Word := BitVec 16

/-- The number of a V register or of a key: one nibble, so every value names one (R7, R11, R20, R61). -/
abbrev Nibble := BitVec 4

end Sys2Proof
end

