-- ==== Sys2Proof/Syntax.lean ====
section
/-! DEFINITION. The 34 instructions of R64, one constructor per row of `opcode_table.json`, in the table's order.
`x` and `y` are the fields X and Y, `n`, `nn` and `nnn` the immediates N, NN and NNN (R61). A field the instruction
decodes but does not use is kept (R69: N of 5XY0 and 9XY0; R128, R130: Y of 8XY6 and 8XYE), so that a decoded
instruction still determines its word (log entry 12). -/

namespace Sys2Proof

inductive Instr where
  /-- 00E0, CLS: clear screen (R170). -/
  | cls
  /-- 00EE, RET: return (R100). -/
  | ret
  /-- 1NNN, JP NNN: jump (R101). -/
  | jp (nnn : BitVec 12)
  /-- 2NNN, CALL NNN: call (R102). -/
  | call (nnn : BitVec 12)
  /-- 3XNN, SE VX, NN: skip if equal to the immediate (R104). -/
  | seImm (x : Nibble) (nn : Byte)
  /-- 4XNN, SNE VX, NN: skip if not equal to the immediate (R105). -/
  | sneImm (x : Nibble) (nn : Byte)
  /-- 5XY0, SE VX, VY: skip if the registers are equal (R106); N is ignored (R69). -/
  | seReg (x y : Nibble) (n : Nibble)
  /-- 6XNN, LD VX, NN: load immediate (R120). -/
  | ldImm (x : Nibble) (nn : Byte)
  /-- 7XNN, ADD VX, NN: add immediate (R121). -/
  | addImm (x : Nibble) (nn : Byte)
  /-- 8XY0, LD VX, VY: copy (R122). -/
  | ldReg (x y : Nibble)
  /-- 8XY1, OR VX, VY (R123). -/
  | orReg (x y : Nibble)
  /-- 8XY2, AND VX, VY (R124). -/
  | andReg (x y : Nibble)
  /-- 8XY3, XOR VX, VY (R125). -/
  | xorReg (x y : Nibble)
  /-- 8XY4, ADD VX, VY: add with carry flag (R126). -/
  | addReg (x y : Nibble)
  /-- 8XY5, SUB VX, VY: VX minus VY (R127). -/
  | subReg (x y : Nibble)
  /-- 8XY6, SHR VX: shift right by one (R128); Y is ignored. -/
  | shr (x y : Nibble)
  /-- 8XY7, SUBN VX, VY: VY minus VX (R129). -/
  | subnReg (x y : Nibble)
  /-- 8XYE, SHL VX: shift left by one (R130); Y is ignored. -/
  | shl (x y : Nibble)
  /-- 9XY0, SNE VX, VY: skip if the registers differ (R107); N is ignored (R69). -/
  | sneReg (x y : Nibble) (n : Nibble)
  /-- ANNN, LD I, NNN (R150). -/
  | ldI (nnn : BitVec 12)
  /-- BNNN, JP V0, NNN: jump to NNN + V0 (R103). -/
  | jpV0 (nnn : BitVec 12)
  /-- CXNN, RND VX, NN: random byte and NN (R131). -/
  | rnd (x : Nibble) (nn : Byte)
  /-- DXYN, DRW VX, VY, N: draw sprite (R171). -/
  | drw (x y : Nibble) (n : Nibble)
  /-- EX9E, SKP VX: skip if key down (R190). -/
  | skp (x : Nibble)
  /-- EXA1, SKNP VX: skip if key up (R191). -/
  | sknp (x : Nibble)
  /-- FX07, LD VX, DT: read the delay timer (R193). -/
  | ldVxDt (x : Nibble)
  /-- FX0A, LD VX, K: await a key (R192). -/
  | ldVxK (x : Nibble)
  /-- FX15, LD DT, VX: set the delay timer (R194). -/
  | ldDtVx (x : Nibble)
  /-- FX18, LD ST, VX: set the sound timer (R195). -/
  | ldStVx (x : Nibble)
  /-- FX1E, ADD I, VX (R151). -/
  | addI (x : Nibble)
  /-- FX29, LD F, VX: font glyph address (R152). -/
  | ldF (x : Nibble)
  /-- FX33, LD B, VX: binary-coded decimal (R153). -/
  | ldB (x : Nibble)
  /-- FX55, LD [I], VX: store V0 to VX (R154). -/
  | stRegs (x : Nibble)
  /-- FX65, LD VX, [I]: load V0 to VX (R155). -/
  | ldRegs (x : Nibble)
  deriving DecidableEq, Repr

end Sys2Proof
end

