-- ==== Sys2Proof/WellFormed.lean ====
section
/-! DEFINITION. What is well formed.
A TERM of `Instr` always is: each of its fields has the type of exactly its field's width (R61), so an operand out of
range cannot be written, and statements about "every instruction" quantify over all of `Instr` with no side condition.
A WORD may be ill formed: R70 lists the unrecognised ones family by family. `Word.recognised` is that list, written with
masks and apart from the decoder, so that the decoder can be held against it. -/

namespace Sys2Proof

/-- R65, R70: in family 0 only the words 0x00E0 and 0x00EE are recognised. -/
def Word.recognisedFamily0 (w : Word) : Bool :=
  w == 0x00E0#16 || w == 0x00EE#16

/-- R66, R70: in family 8 the low nibbles 8, 9, 0xA, 0xB, 0xC, 0xD and 0xF are unrecognised. -/
def Word.recognisedFamily8 (w : Word) : Bool :=
  !([0x0008#16, 0x0009#16, 0x000A#16, 0x000B#16, 0x000C#16, 0x000D#16, 0x000F#16].contains (w &&& 0x000F#16))

/-- R67, R70: in family E only the low bytes 0x9E and 0xA1 are recognised. -/
def Word.recognisedFamilyE (w : Word) : Bool :=
  [0x009E#16, 0x00A1#16].contains (w &&& 0x00FF#16)

/-- R68, R70: in family F nine low bytes are recognised. -/
def Word.recognisedFamilyF (w : Word) : Bool :=
  [0x0007#16, 0x000A#16, 0x0015#16, 0x0018#16, 0x001E#16, 0x0029#16, 0x0033#16, 0x0055#16, 0x0065#16].contains
    (w &&& 0x00FF#16)

/-- R70: the word is not in the set of unrecognised words. -/
def Word.recognised (w : Word) : Bool :=
  if w &&& 0xF000#16 = 0x0000#16 then Word.recognisedFamily0 w
  else if w &&& 0xF000#16 = 0x8000#16 then Word.recognisedFamily8 w
  else if w &&& 0xF000#16 = 0xE000#16 then Word.recognisedFamilyE w
  else if w &&& 0xF000#16 = 0xF000#16 then Word.recognisedFamilyF w
  else true

end Sys2Proof
end

