-- ==== Sys2Proof/Decode.lean ====
section
/-! DEFINITION. Decoding (R61 to R71), encoding (R74) and the opcode table's masks (R64).
Decode is total on any bytes: it answers the instruction and the rest of the bytes, or rejects them by name. -/

namespace Sys2Proof

/-! ### The fields of an instruction word (R61) -/

/-- Bits 15:12, the primary family. -/
def fieldOp (w : Word) : Nibble := w.extractLsb' 12 4
/-- Bits 11:8, X. -/
def fieldX (w : Word) : Nibble := w.extractLsb' 8 4
/-- Bits 7:4, Y. -/
def fieldY (w : Word) : Nibble := w.extractLsb' 4 4
/-- Bits 3:0, N. -/
def fieldN (w : Word) : Nibble := w.extractLsb' 0 4
/-- Bits 7:0, NN. -/
def fieldNN (w : Word) : Byte := w.extractLsb' 0 8
/-- Bits 11:0, NNN. -/
def fieldNNN (w : Word) : BitVec 12 := w.extractLsb' 0 12

/-! ### Decoding -/

/-- Why bytes are rejected. -/
inductive Reject where
  /-- The word is one of R70's unrecognised words; STEP answers it with R86's non-fatal effect. -/
  | unknownOpcode (w : Word)
  /-- Fewer than two bytes were given: an instruction is two bytes (R60). -/
  | truncated (bytes : Nat)
  deriving DecidableEq, Repr

/-- Family 0: all sixteen bits are matched (R65). -/
def decodeFamily0 (w : Word) : Option Instr :=
  match w with
  | 0x00E0#16 => some .cls
  | 0x00EE#16 => some .ret
  | _ => none

/-- Family 8: the low nibble selects (R66). -/
def decodeFamily8 (w : Word) : Option Instr :=
  match fieldN w with
  | 0x0#4 => some (.ldReg (fieldX w) (fieldY w))
  | 0x1#4 => some (.orReg (fieldX w) (fieldY w))
  | 0x2#4 => some (.andReg (fieldX w) (fieldY w))
  | 0x3#4 => some (.xorReg (fieldX w) (fieldY w))
  | 0x4#4 => some (.addReg (fieldX w) (fieldY w))
  | 0x5#4 => some (.subReg (fieldX w) (fieldY w))
  | 0x6#4 => some (.shr (fieldX w) (fieldY w))
  | 0x7#4 => some (.subnReg (fieldX w) (fieldY w))
  | 0xE#4 => some (.shl (fieldX w) (fieldY w))
  | _ => none

/-- Family E: the low byte selects (R67). -/
def decodeFamilyE (w : Word) : Option Instr :=
  match fieldNN w with
  | 0x9E#8 => some (.skp (fieldX w))
  | 0xA1#8 => some (.sknp (fieldX w))
  | _ => none

/-- Family F: the low byte selects (R68). -/
def decodeFamilyF (w : Word) : Option Instr :=
  match fieldNN w with
  | 0x07#8 => some (.ldVxDt (fieldX w))
  | 0x0A#8 => some (.ldVxK (fieldX w))
  | 0x15#8 => some (.ldDtVx (fieldX w))
  | 0x18#8 => some (.ldStVx (fieldX w))
  | 0x1E#8 => some (.addI (fieldX w))
  | 0x29#8 => some (.ldF (fieldX w))
  | 0x33#8 => some (.ldB (fieldX w))
  | 0x55#8 => some (.stRegs (fieldX w))
  | 0x65#8 => some (.ldRegs (fieldX w))
  | _ => none

/-- The primary decode on bits 15:12 (R64, R69): `none` is an unrecognised word (R70). -/
def decodeFamily (w : Word) : Option Instr :=
  match fieldOp w with
  | 0x0#4 => decodeFamily0 w
  | 0x1#4 => some (.jp (fieldNNN w))
  | 0x2#4 => some (.call (fieldNNN w))
  | 0x3#4 => some (.seImm (fieldX w) (fieldNN w))
  | 0x4#4 => some (.sneImm (fieldX w) (fieldNN w))
  | 0x5#4 => some (.seReg (fieldX w) (fieldY w) (fieldN w))
  | 0x6#4 => some (.ldImm (fieldX w) (fieldNN w))
  | 0x7#4 => some (.addImm (fieldX w) (fieldNN w))
  | 0x8#4 => decodeFamily8 w
  | 0x9#4 => some (.sneReg (fieldX w) (fieldY w) (fieldN w))
  | 0xA#4 => some (.ldI (fieldNNN w))
  | 0xB#4 => some (.jpV0 (fieldNNN w))
  | 0xC#4 => some (.rnd (fieldX w) (fieldNN w))
  | 0xD#4 => some (.drw (fieldX w) (fieldY w) (fieldN w))
  | 0xE#4 => decodeFamilyE w
  | 0xF#4 => decodeFamilyF w
  | _ => none

/-- R83: a word is one of the 34 operations or is rejected as unknown; nothing but the word is read. -/
def decodeWord (w : Word) : Except Reject Instr :=
  match decodeFamily w with
  | some i => .ok i
  | none => .error (.unknownOpcode w)

/-- R45, R46: the byte at the lower address is bits 15:8. -/
def wordOfBytes (hi lo : Byte) : Word := hi ++ lo

/-- R60: an instruction is the first two bytes, high byte first; the rest is left over. -/
def decode : List Byte → Except Reject (Instr × List Byte)
  | hi :: lo :: rest =>
    match decodeWord (wordOfBytes hi lo) with
    | .ok i => .ok (i, rest)
    | .error r => .error r
  | short => .error (.truncated short.length)

/-! ### Encoding (R74) -/

/-- Format NNN: `match or NNN`. -/
def formatNNN (pattern : Word) (nnn : BitVec 12) : Word := pattern ||| nnn.setWidth 16

/-- Formats XNN and XFN: `match or (X << 8) or NN`; in XFN the low byte is already in `match`. -/
def formatXNN (pattern : Word) (x : Nibble) (nn : Byte) : Word :=
  pattern ||| (x.setWidth 16 <<< 8) ||| nn.setWidth 16

/-- Format XFN: `match or (X << 8)`. -/
def formatXFN (pattern : Word) (x : Nibble) : Word := pattern ||| (x.setWidth 16 <<< 8)

/-- Format XYN: `match or (X << 8) or (Y << 4) or N`. -/
def formatXYN (pattern : Word) (x y n : Nibble) : Word :=
  pattern ||| (x.setWidth 16 <<< 8) ||| (y.setWidth 16 <<< 4) ||| n.setWidth 16

/-- A row of the opcode table: a word `w` selects it when `w and mask = match` (R64). -/
structure Row where
  pattern : Word
  mask : Word
  deriving DecidableEq, Repr

def Row.selects (r : Row) (w : Word) : Bool := w &&& r.mask == r.pattern

/-- The columns `match` and `mask` of R64's table. -/
def Instr.row : Instr → Row
  | .cls => ⟨0x00E0#16, 0xFFFF#16⟩
  | .ret => ⟨0x00EE#16, 0xFFFF#16⟩
  | .jp _ => ⟨0x1000#16, 0xF000#16⟩
  | .call _ => ⟨0x2000#16, 0xF000#16⟩
  | .seImm _ _ => ⟨0x3000#16, 0xF000#16⟩
  | .sneImm _ _ => ⟨0x4000#16, 0xF000#16⟩
  | .seReg _ _ _ => ⟨0x5000#16, 0xF000#16⟩
  | .ldImm _ _ => ⟨0x6000#16, 0xF000#16⟩
  | .addImm _ _ => ⟨0x7000#16, 0xF000#16⟩
  | .ldReg _ _ => ⟨0x8000#16, 0xF00F#16⟩
  | .orReg _ _ => ⟨0x8001#16, 0xF00F#16⟩
  | .andReg _ _ => ⟨0x8002#16, 0xF00F#16⟩
  | .xorReg _ _ => ⟨0x8003#16, 0xF00F#16⟩
  | .addReg _ _ => ⟨0x8004#16, 0xF00F#16⟩
  | .subReg _ _ => ⟨0x8005#16, 0xF00F#16⟩
  | .shr _ _ => ⟨0x8006#16, 0xF00F#16⟩
  | .subnReg _ _ => ⟨0x8007#16, 0xF00F#16⟩
  | .shl _ _ => ⟨0x800E#16, 0xF00F#16⟩
  | .sneReg _ _ _ => ⟨0x9000#16, 0xF000#16⟩
  | .ldI _ => ⟨0xA000#16, 0xF000#16⟩
  | .jpV0 _ => ⟨0xB000#16, 0xF000#16⟩
  | .rnd _ _ => ⟨0xC000#16, 0xF000#16⟩
  | .drw _ _ _ => ⟨0xD000#16, 0xF000#16⟩
  | .skp _ => ⟨0xE09E#16, 0xF0FF#16⟩
  | .sknp _ => ⟨0xE0A1#16, 0xF0FF#16⟩
  | .ldVxDt _ => ⟨0xF007#16, 0xF0FF#16⟩
  | .ldVxK _ => ⟨0xF00A#16, 0xF0FF#16⟩
  | .ldDtVx _ => ⟨0xF015#16, 0xF0FF#16⟩
  | .ldStVx _ => ⟨0xF018#16, 0xF0FF#16⟩
  | .addI _ => ⟨0xF01E#16, 0xF0FF#16⟩
  | .ldF _ => ⟨0xF029#16, 0xF0FF#16⟩
  | .ldB _ => ⟨0xF033#16, 0xF0FF#16⟩
  | .stRegs _ => ⟨0xF055#16, 0xF0FF#16⟩
  | .ldRegs _ => ⟨0xF065#16, 0xF0FF#16⟩

/-- The 34 rows of R64's table, in its order. -/
def opcodeRows : List Row :=
  [(Instr.cls).row, (Instr.ret).row, (Instr.jp 0).row, (Instr.call 0).row, (Instr.seImm 0 0).row, (Instr.sneImm 0 0).row,
   (Instr.seReg 0 0 0).row, (Instr.ldImm 0 0).row, (Instr.addImm 0 0).row, (Instr.ldReg 0 0).row, (Instr.orReg 0 0).row,
   (Instr.andReg 0 0).row, (Instr.xorReg 0 0).row, (Instr.addReg 0 0).row, (Instr.subReg 0 0).row, (Instr.shr 0 0).row,
   (Instr.subnReg 0 0).row, (Instr.shl 0 0).row, (Instr.sneReg 0 0 0).row, (Instr.ldI 0).row, (Instr.jpV0 0).row,
   (Instr.rnd 0 0).row, (Instr.drw 0 0 0).row] ++
  [(Instr.skp 0).row, (Instr.sknp 0).row, (Instr.ldVxDt 0).row, (Instr.ldVxK 0).row, (Instr.ldDtVx 0).row,
   (Instr.ldStVx 0).row, (Instr.addI 0).row, (Instr.ldF 0).row, (Instr.ldB 0).row, (Instr.stRegs 0).row,
   (Instr.ldRegs 0).row]

/-- R74: the word of an instruction, the inverse of R61 by format (R62). -/
def encode (i : Instr) : Word :=
  match i with
  | .cls | .ret => i.row.pattern
  | .jp nnn | .call nnn | .ldI nnn | .jpV0 nnn => formatNNN i.row.pattern nnn
  | .seImm x nn | .sneImm x nn | .ldImm x nn | .addImm x nn | .rnd x nn => formatXNN i.row.pattern x nn
  | .seReg x y n | .sneReg x y n | .drw x y n => formatXYN i.row.pattern x y n
  | .ldReg x y | .orReg x y | .andReg x y | .xorReg x y | .addReg x y | .subReg x y | .shr x y | .subnReg x y
  | .shl x y => formatXYN i.row.pattern x y 0
  | .skp x | .sknp x | .ldVxDt x | .ldVxK x | .ldDtVx x | .ldStVx x | .addI x | .ldF x | .ldB x | .stRegs x
  | .ldRegs x => formatXFN i.row.pattern x

/-- R74: the two bytes of an instruction, high byte first. -/
def encodeBytes (i : Instr) : List Byte :=
  [(encode i).extractLsb' 8 8, (encode i).extractLsb' 0 8]

/-! ### Words numbered as `opcode_table.json` numbers them -/

/-- The bytes, in address order, of an instruction whose table bits are `w`: one 16-bit word, stored high byte first (R60);
bits at and above `nbits` are 0. -/
def tableBytes (nbits w : Nat) : List Byte :=
  [BitVec.ofNat 8 (w % 2 ^ nbits / 256), BitVec.ofNat 8 (w % 2 ^ nbits)]

/-- The instruction the decoder reads from the table's word. -/
def decodeTableWord (nbits w : Nat) : Option Instr :=
  match decode (tableBytes nbits w) with
  | .ok (i, _) => some i
  | .error _ => none

end Sys2Proof
end

