-- ==== Sys2Proof/Config.lean ====
section
/-! DEFINITION. The implementation parameters of R4: the font's default, and the two free draws a STEP reads (R26, R88).
The fourth parameter, `schedule`, is the list of commands given to `Sys2Proof.Machine.runCommands`. -/

namespace Sys2Proof

/-- The parameter `rand8` (R131, D3): the byte the `n`-th draw of a run supplies.
A free value: it has no body, so a claim holds whatever the bytes are (log entry 2; safe). -/
opaque Config.rand8 : Nat → Byte

/-- The parameter `keypick` (R192, D17): at the `n`-th draw of a run, whether the pressed key offered is the one reported.
A free value: it has no body, so a claim holds whichever pressed key is reported (log entry 3; safe). -/
opaque Config.keyPick : Nat → Nibble → Bool

/-- The default of the parameter `FONT`: the table of R42, glyph d at `5*d`, top row first.
PRESUMED: the spec itself marks these bytes as general knowledge (G4, N1, D22); log entry 1, unsafe for a claim that
starts from `State.reset` and looks at a font byte; a claim over all states holds for every font. -/
def Config.defaultFont : Vector Byte 80 := #v[
  0xF0, 0x90, 0x90, 0x90, 0xF0,
  0x20, 0x60, 0x20, 0x20, 0x70,
  0xF0, 0x10, 0xF0, 0x80, 0xF0,
  0xF0, 0x10, 0xF0, 0x10, 0xF0,
  0x90, 0x90, 0xF0, 0x10, 0x10,
  0xF0, 0x80, 0xF0, 0x10, 0xF0,
  0xF0, 0x80, 0xF0, 0x90, 0xF0,
  0xF0, 0x10, 0x20, 0x40, 0x40,
  0xF0, 0x90, 0xF0, 0x90, 0xF0,
  0xF0, 0x90, 0xF0, 0x10, 0xF0,
  0xF0, 0x90, 0xF0, 0x90, 0x90,
  0xE0, 0x90, 0xE0, 0x90, 0xE0,
  0xF0, 0x80, 0x80, 0x80, 0xF0,
  0xE0, 0x90, 0x90, 0x90, 0xE0,
  0xF0, 0x80, 0xF0, 0x80, 0xF0,
  0xF0, 0x80, 0xF0, 0x80, 0x80]

end Sys2Proof
end

