-- ==== Sys2Proof/Machine/State.lean ====
section
/-! DEFINITION. The architectural state of R10, as plain data, and its value after power-on (R260, R261).
Two fields are the model's own: `font`, the parameter FONT of R4 held where R41 puts it, and `draws`, which numbers the
free values a STEP reads (R26, R88). -/

namespace Sys2Proof.Machine

/-- The framebuffer: 32 rows of 64 one-bit cells, bit x of row y being `FB[y*64 + x]` (R19, R172; log entry 7). -/
abbrev Framebuffer := Vector (BitVec 64) 32

/-- The kinds of access a MemoryFault names (R43, R44, R45, R230). -/
inductive AccessKind where
  | fetch
  | read
  | write
  | protectedWrite
  deriving DecidableEq, Repr

/-- What an error is: R230's column `code` with the `info` that belongs to it (log entry 9). -/
inductive ErrorCause where
  /-- LOAD of more than 3584 bytes; `info` is the length offered (R231). -/
  | romTooLarge (length : Nat)
  /-- STEP on a word of R70; `info` is the word (R232). -/
  | unknownOpcode (word : Word)
  /-- 2NNN with SP = 16; `info` is SP (R233). -/
  | stackOverflow (sp : Nat)
  /-- 00EE with SP = 0; `info` is SP (R234). -/
  | stackUnderflow (sp : Nat)
  /-- An access outside what R43 to R45 allow; `info` is its kind and the first offending address (R235). -/
  | memoryFault (kind : AccessKind) (address : Nat)
  /-- EX9E or EXA1 with V[X] above 15; `info` is V[X] (R236). -/
  | keyIndexFault (value : Byte)
  deriving DecidableEq, Repr

/-- The record `LAST_ERROR` holds: what happened, and the PC it happened at (R23, R230). -/
structure ErrorRecord where
  cause : ErrorCause
  pc : Word
  deriving DecidableEq, Repr

/-- The architectural state. -/
structure State where
  /-- `MEM`, the cells that differ from what RESET leaves: addresses strictly rising (R25, R40; log entry 6). -/
  mem : List Host.Cell
  /-- What RESET leaves at [0x000, 0x050): the parameter FONT (R4, R42). The model's own field; log entry 1. -/
  font : Vector Byte 80
  /-- V0 to VF; VF is `v[15]` (R11, R12). -/
  v : Vector Byte 16
  /-- The index register `I` (R13). -/
  i : Word
  /-- `PC`, the address of the instruction being executed (R14). -/
  pc : Word
  /-- `STACK` (R15). -/
  stack : Vector Word 16
  /-- `SP`, the number of entries in use, 0 to 16 (R16). -/
  sp : Fin 17
  /-- The delay timer `DT` (R17). -/
  dt : Byte
  /-- The sound timer `ST` (R18). -/
  st : Byte
  /-- The framebuffer `FB` (R19). -/
  fb : Framebuffer
  /-- `KEY`: which keys are down (R20). -/
  key : Vector Bool 16
  /-- `DIRTY` (R21). -/
  dirty : Bool
  /-- `HALTED` (R22). -/
  halted : Bool
  /-- `LAST_ERROR` (R23). -/
  lastError : Option ErrorRecord
  /-- `BEEP` (R24). -/
  beep : Bool
  /-- How many free values STEPs have consumed: the index of the next one. The model's own field; log entry 4. -/
  draws : Nat
  deriving DecidableEq, Repr

/-- Why the model would stop with a fault. The spec gives every STEP a next state: its own fatal faults are taken as R238
says, a next state with HALTED set, and are not these (log entry 10). -/
inductive Fault where
  /-- An access to an address that is no cell of MEM, met outside R43 to R45's checks. No operation of the model raises it,
  since each access goes through those checks and ends in R238's next state; were one to, it would be safe (the model
  stops where the hardware halts). -/
  | absentCell (address : Nat)
  deriving DecidableEq, Repr

/-- Why the model would refuse an instruction. -/
inductive Refusal where
  /-- `exec` raises it for an instruction of the table that has no meaning yet: none, in this model. It would be safe (the
  model stops where the hardware goes on). -/
  | notModelled (mnemonic : String)
  deriving DecidableEq, Repr

/-- The state at power-on: the RESET state with every key up (R10, R260, R261).
`font` is the default of FONT (PRESUMED, log entry 1); `draws` is 0 (DESIGN CHOICE, log entry 4). -/
def State.reset : State where
  mem := []
  font := Config.defaultFont
  v := Vector.replicate 16 0
  i := 0
  pc := 0x200
  stack := Vector.replicate 16 0
  sp := 0
  dt := 0
  st := 0
  fb := Vector.replicate 32 0
  key := Vector.replicate 16 false
  dirty := true
  halted := false
  lastError := none
  beep := false
  draws := 0

end Sys2Proof.Machine
end

