-- ==== Sys2Proof/Machine/Ops.lean ====
section
/-! DEFINITION. The named operations over memory and registers, taking an error (R230, R238) and the return from a halt (R239, R260). -/

namespace Sys2Proof.Machine

/-! ### Memory as data (R25, R40) -/

/-- What a cell that is not listed reads as: what RESET leaves there (R10, R41, R260). -/
def unlistedByte (font : Vector Byte 80) (a : Nat) : Byte :=
  if h : a < 80 then font[a] else 0

/-- The listed byte at `a`; the list rises, so the search stops at the first greater address. -/
def Mem.find (a : Nat) : List Host.Cell → Option Byte
  | [] => none
  | (k, b) :: m => if a < k then none else if a = k then some b else Mem.find a m

/-- List `b` at `a`, or unlist `a` where `b` is what an unlisted cell reads as (`unlisted`). -/
def Mem.put (unlisted : Byte) (a : Nat) (b : Byte) : List Host.Cell → List Host.Cell
  | [] => if b = unlisted then [] else [(a, b)]
  | (k, c) :: m =>
    if a < k then (if b = unlisted then (k, c) :: m else (a, b) :: (k, c) :: m)
    else if a = k then (if b = unlisted then m else (a, b) :: m)
    else (k, c) :: Mem.put unlisted a b m

/-- The canonical form, from address `lo` on: addresses rise strictly, each is a cell of `MEM`, and no listed byte equals
what the cell reads as unlisted. -/
def Mem.wfFrom (font : Vector Byte 80) : Nat → List Host.Cell → Bool
  | _, [] => true
  | lo, (k, b) :: m => decide (lo ≤ k) && decide (k < 4096) && decide (b ≠ unlistedByte font k) && Mem.wfFrom font (k + 1) m

/-- The memory of a state is in canonical form. -/
def State.memWf (s : State) : Bool := Mem.wfFrom s.font 0 s.mem

/-- The byte at an address: none above 0xFFF, where there is no cell (R40). -/
def State.readByte (s : State) (a : Nat) : Option Byte :=
  if a < 4096 then some ((Mem.find a s.mem).getD (unlistedByte s.font a)) else none

/-- `MEM[a] <- b`, unchecked: used below R44's check, by LOAD (R211) and to place an instruction. -/
def State.putByte (s : State) (a : Nat) (b : Byte) : State :=
  { s with mem := Mem.put (unlistedByte s.font a) a b s.mem }

/-- Bytes at consecutive addresses from `a`, unchecked. -/
def State.putBytes (s : State) (a : Nat) : List Byte → State
  | [] => s
  | b :: bs => (s.putByte a b).putBytes (a + 1) bs

/-! ### The access primitives (R43, R44, R45) -/

/-- `MemRead(a, 1)` (R43). -/
def memRead (s : State) (a : Nat) : Except ErrorCause Byte :=
  match s.readByte a with
  | some b => .ok b
  | none => .error (.memoryFault .read a)

/-- `MemWrite(a, 1, b)` (R44). -/
def memWrite (s : State) (a : Nat) (b : Byte) : Except ErrorCause State :=
  if 0xFFF < a then .error (.memoryFault .write a)
  else if a < 0x200 then .error (.memoryFault .protectedWrite a)
  else .ok (s.putByte a b)

/-- Reads at `a`, `a + 1`, …: the first offending address faults and nothing is read (R89, R171, R155). -/
def memReadRange (s : State) (a : Nat) : Nat → Except ErrorCause (List Byte)
  | 0 => .ok []
  | n + 1 =>
    match memRead s a with
    | .error e => .error e
    | .ok b =>
      match memReadRange s (a + 1) n with
      | .error e => .error e
      | .ok bs => .ok (b :: bs)

/-- Writes at `a`, `a + 1`, …: the first offending address faults and, the state being given back only when every write
passes, nothing is written (R89, R153, R154). -/
def memWriteRange (s : State) (a : Nat) : List Byte → Except ErrorCause State
  | [] => .ok s
  | b :: bs =>
    match memWrite s a b with
    | .error e => .error e
    | .ok t => memWriteRange t (a + 1) bs

/-- Instruction fetch, `MemRead(PC, 2)`, big-endian, at any PC up to 0xFFE, odd ones too (R45, R47, R82). -/
def fetch (s : State) : Except ErrorCause Word :=
  match s.readByte s.pc.toNat, s.readByte (s.pc.toNat + 1) with
  | some hi, some lo => .ok (wordOfBytes hi lo)
  | _, _ => .error (.memoryFault .fetch s.pc.toNat)

/-! ### Registers -/

/-- `V[x]` (R11). -/
def State.reg (s : State) (x : Nibble) : Byte := s.v[x.toNat]

/-- `V[x] <- b` (R11). -/
def State.setReg (s : State) (x : Nibble) (b : Byte) : State := { s with v := s.v.set x.toNat b }

/-- VF's number: the flags are one V register like any other (R12). -/
def vf : Nibble := 15

/-- Consecutive V registers from number `k` on (R155). -/
def State.setRegs (s : State) (k : Nat) : List Byte → State
  | [] => s
  | b :: bs => (s.setReg (BitVec.ofNat 4 k) b).setRegs (k + 1) bs

/-- `V[0]` to `V[n-1]` (R154). -/
def State.firstRegs (s : State) (n : Nat) : List Byte :=
  (List.range n).map fun k => s.reg (BitVec.ofNat 4 k)

/-- `I <- w` (R13). -/
def State.setI (s : State) (w : Word) : State := { s with i := w }

/-- `PC <- w` (R14). -/
def State.setPc (s : State) (w : Word) : State := { s with pc := w }

/-- R84: `PC <- (PC + 2) mod 65536`. -/
def State.advance (s : State) : State := s.setPc (s.pc + 2)

/-- R85: PC advances by 4 when the skip condition holds, by 2 otherwise. -/
def State.skipIf (s : State) (condition : Bool) : State := s.setPc (s.pc + if condition then 4 else 2)

/-- `DT <- b` (R17). -/
def State.setDt (s : State) (b : Byte) : State := { s with dt := b }

/-- `ST <- b` (R18). -/
def State.setSt (s : State) (b : Byte) : State := { s with st := b }

/-- `DIRTY <- d` (R21). -/
def State.setDirty (s : State) (d : Bool) : State := { s with dirty := d }

/-- `BEEP <- b` (R24). -/
def State.setBeep (s : State) (b : Bool) : State := { s with beep := b }

/-- `KEY[k]` (R20). -/
def State.keyDown (s : State) (k : Nibble) : Bool := s.key[k.toNat]

/-- `KEY[k] <- pressed` (R212). -/
def State.setKey (s : State) (k : Nibble) (pressed : Bool) : State := { s with key := s.key.set k.toNat pressed }

/-- One free value has been used (R26, R88). -/
def State.countDraw (s : State) : State := { s with draws := s.draws + 1 }

/-! ### The call stack (R15, R16) -/

/-- `STACK[SP] <- w; SP <- SP + 1`; none when SP = 16 (R102). -/
def State.push (s : State) (w : Word) : Option State :=
  if h : s.sp.val < 16 then
    some { s with stack := s.stack.set s.sp.val w, sp := ⟨s.sp.val + 1, by omega⟩ }
  else none

/-- `SP <- SP - 1`, and the entry SP then names, which keeps its value; none when SP = 0 (R15, R100). -/
def State.pop (s : State) : Option (Word × State) :=
  if h : 0 < s.sp.val then
    some (s.stack[s.sp.val - 1]'(by omega), { s with sp := ⟨s.sp.val - 1, by omega⟩ })
  else none

/-! ### The framebuffer (R19, R172) -/

/-- The cell of pixel (x mod 64, y mod 32). -/
def Framebuffer.cell (fb : Framebuffer) (x y : Nat) : Bool :=
  (fb[y % 32]'(Nat.mod_lt _ (by decide))).getLsbD (x % 64)

/-- The framebuffer with the cell of pixel (x mod 64, y mod 32) toggled. -/
def Framebuffer.toggle (fb : Framebuffer) (x y : Nat) : Framebuffer :=
  fb.set (y % 32) ((fb[y % 32]'(Nat.mod_lt _ (by decide))) ^^^ BitVec.twoPow 64 (x % 64)) (Nat.mod_lt _ (by decide))

/-- Every cell 0 (R170). -/
def Framebuffer.clear : Framebuffer := Vector.replicate 32 0

/-- `FB <- fb`. -/
def State.setFb (s : State) (fb : Framebuffer) : State := { s with fb := fb }

/-! ### Errors (R230), taking a fatal one (R238), and the return (R239) -/

/-- R230's column `code`. -/
def ErrorCause.code : ErrorCause → Nat
  | .romTooLarge _ => 1
  | .unknownOpcode _ => 2
  | .stackOverflow _ => 3
  | .stackUnderflow _ => 4
  | .memoryFault _ _ => 5
  | .keyIndexFault _ => 6

/-- R230's column `sets HALTED`. -/
def ErrorCause.fatal : ErrorCause → Bool
  | .romTooLarge _ => false
  | .unknownOpcode _ => false
  | .stackOverflow _ => true
  | .stackUnderflow _ => true
  | .memoryFault _ _ => true
  | .keyIndexFault _ => true

/-- `LAST_ERROR <- (cause, PC)`: the new record replaces the earlier one (R23, R230). -/
def State.recordError (s : State) (cause : ErrorCause) : State := { s with lastError := some ⟨cause, s.pc⟩ }

/-- R238, fatal fault entry: LAST_ERROR is written, HALTED is set, nothing else changes; PC still addresses the
instruction that faulted. -/
def State.enterFatal (s : State) (cause : ErrorCause) : State := { s.recordError cause with halted := true }

/-- The outcome of an instruction that raises a fatal fault: R238's next state. -/
def takeFault (s : State) (cause : ErrorCause) : Host.Outcome State Fault Refusal := .next (s.enterFatal cause)

/-- R239, R260: the RESET command, the one way out of HALTED. KEY is not written (R20); the parameter FONT and the count of
draws are no part of what RESET writes. -/
def State.hostReset (s : State) : State :=
  { State.reset with key := s.key, font := s.font, draws := s.draws }

/-- R86, the whole effect of an unrecognised word: LAST_ERROR and PC + 2. -/
def execUnknown (word : Word) (s : State) : Host.Outcome State Fault Refusal :=
  .next (s.recordError (.unknownOpcode word)).advance

end Sys2Proof.Machine
end

