-- ==== Sys2Proof/Machine/Flags.lean ====
section
/-! DEFINITION. Every flag the machine computes (R28), each from the original operands, and the order of the writes (R133). -/

namespace Sys2Proof.Machine

/-- A flag is the byte 1 or 0. -/
def flagByte (b : Bool) : Byte := if b then 1 else 0

/-- 8XY4: 1 exactly when the unsigned sum exceeds 255 (R126, R132). -/
def carryFlag (a b : Byte) : Byte := flagByte (decide (a.toNat + b.toNat > 255))

/-- 8XY5, 8XY7: 1 exactly when the minuend is at least the subtrahend (R127, R129, R132). -/
def noBorrowFlag (minuend subtrahend : Byte) : Byte := flagByte (decide (minuend.toNat ≥ subtrahend.toNat))

/-- 8XY6: the original bit 0 (R128). -/
def shiftedOutRight (a : Byte) : Byte := flagByte (a.getLsbD 0)

/-- 8XYE: the original bit 7 (R130). -/
def shiftedOutLeft (a : Byte) : Byte := flagByte (a.getLsbD 7)

/-- FX1E: 1 exactly when the unreduced sum exceeds 0xFFF (R151). -/
def indexOverflowFlag (i : Word) (b : Byte) : Byte := flagByte (decide (i.toNat + b.toNat > 0xFFF))

/-- DXYN: 1 exactly when some cell went from set to unset (R171). -/
def collisionFlag (hit : Bool) : Byte := flagByte hit

/-- VF written by a flag-setting instruction. -/
def State.setFlag (s : State) (flag : Byte) : State := s.setReg vf flag

/-- R133: the result first, the flag last, so with X = 15 the flag survives. -/
def State.setResultAndFlag (s : State) (x : Nibble) (result flag : Byte) : State :=
  (s.setReg x result).setFlag flag

end Sys2Proof.Machine
end

