-- ==== Sys2Proof/Machine/Operands.lean ====
section
/-! DEFINITION. The operand forms and effective addresses (R63), and the values FX29, FX33, DXYN and FX0A compute from them. -/

namespace Sys2Proof.Machine

/-- `zext_16(NNN)`: an absolute address, into PC or I (R63, R101, R102, R150). -/
def absolute (nnn : BitVec 12) : Word := nnn.setWidth 16

/-- `NNN + V[0]`, not reduced to 12 bits (R103). -/
def v0Target (s : State) (nnn : BitVec 12) : Word := absolute nnn + (s.reg 0).setWidth 16

/-- `V[x] * 5` on the whole byte, unmasked (R152). -/
def glyphAddress (b : Byte) : Word := b.setWidth 16 * 5

/-- The address registers name: `I + k` is computed on naturals and never wraps (head of `43_index_memory.md`). -/
def indexBase (s : State) : Nat := s.i.toNat

/-- How many registers V0..VX name: X is the field's value, not a register's (R154, R155). -/
def rangeLength (x : Nibble) : Nat := x.toNat + 1

/-- `(I + X + 1) mod 65536` (R154, R155). -/
def indexAfterRange (s : State) (x : Nibble) : Word := s.i + x.setWidth 16 + 1

/-- Hundreds, tens and ones, in that order (R153). -/
def bcdDigits (b : Byte) : List Byte :=
  [BitVec.ofNat 8 (b.toNat / 100), BitVec.ofNat 8 (b.toNat / 10 % 10), BitVec.ofNat 8 (b.toNat % 10)]

/-! ### Keys (R190 to R192) -/

/-- The key a register names: none when its value is above 15 (R190, R191, R236). -/
def keyOf (b : Byte) : Option Nibble := if b.toNat ≤ 15 then some (b.setWidth 4) else none

/-- The sixteen key numbers, lowest first. -/
def allKeys : List Nibble := [0, 1, 2, 3, 4, 5, 6, 7, 8, 9, 10, 11, 12, 13, 14, 15]

/-- `{ k in 0..15 | KEY[k] }` (R192). -/
def pressedKeys (s : State) : List Nibble := allKeys.filter s.keyDown

/-- A member of the non-empty set `k :: ks`: each key is offered in turn and `take` says whether it is the one; the last
is taken if no other was. As `take` varies every member can result, and nothing else can (R192, D17). -/
def chooseKey (take : Nibble → Bool) : Nibble → List Nibble → Nibble
  | k, [] => k
  | k, k' :: ks => if take k then k else chooseKey take k' ks

/-! ### Sprites (R171, R172) -/

/-- The pixels the 1 bits of one sprite row land on; bit 7 is sprite column 0. Coordinates are reduced per pixel where the
framebuffer is accessed. -/
def rowPixels (vx y : Nat) (b : Byte) : List (Nat × Nat) :=
  ((List.range 8).filter fun c => b.getLsbD (7 - c)).map fun c => (vx + c, y)

/-- The pixels a whole sprite toggles, top row first. -/
def spritePixels (vx : Nat) : Nat → List Byte → List (Nat × Nat)
  | _, [] => []
  | y, b :: bs => rowPixels vx y b ++ spritePixels vx (y + 1) bs

/-- One pixel of the XOR: the cell is toggled, and a cell that was 1 is a collision. -/
def togglePixel (acc : Framebuffer × Bool) (p : Nat × Nat) : Framebuffer × Bool :=
  (acc.1.toggle p.1 p.2, acc.2 || acc.1.cell p.1 p.2)

/-- R171's loop: the framebuffer after the sprite, and whether any cell went from set to unset. -/
def drawSprite (fb : Framebuffer) (vx vy : Nat) (rows : List Byte) : Framebuffer × Bool :=
  (spritePixels vx vy rows).foldl togglePixel (fb, false)

end Sys2Proof.Machine
end

