-- ==== Sys2Proof/Machine/Alu.lean ====
section
/-! DEFINITION. Loads of a register, arithmetic, logic, shifts and random (R120 to R133). -/

namespace Sys2Proof.Machine

/-- An instruction whose only effect is `V[x] <- b` and the advance (R84). -/
def writeReg (x : Nibble) (b : Byte) (s : State) : Host.Outcome State Fault Refusal :=
  .next (s.setReg x b).advance

/-- An instruction that writes a result and then VF, and advances (R84, R133). -/
def writeFlagged (x : Nibble) (result flag : Byte) (s : State) : Host.Outcome State Fault Refusal :=
  .next (s.setResultAndFlag x result flag).advance

/-- 6XNN (R120). -/
def execLdImm (x : Nibble) (nn : Byte) (s : State) : Host.Outcome State Fault Refusal :=
  writeReg x nn s

/-- 7XNN (R121): no flag. -/
def execAddImm (x : Nibble) (nn : Byte) (s : State) : Host.Outcome State Fault Refusal :=
  writeReg x (s.reg x + nn) s

/-- 8XY0 (R122). -/
def execLdReg (x y : Nibble) (s : State) : Host.Outcome State Fault Refusal :=
  writeReg x (s.reg y) s

/-- 8XY1 (R123): no flag. -/
def execOrReg (x y : Nibble) (s : State) : Host.Outcome State Fault Refusal :=
  writeReg x (s.reg x ||| s.reg y) s

/-- 8XY2 (R124): no flag. -/
def execAndReg (x y : Nibble) (s : State) : Host.Outcome State Fault Refusal :=
  writeReg x (s.reg x &&& s.reg y) s

/-- 8XY3 (R125): no flag. -/
def execXorReg (x y : Nibble) (s : State) : Host.Outcome State Fault Refusal :=
  writeReg x (s.reg x ^^^ s.reg y) s

/-- 8XY4 (R126). -/
def execAddReg (x y : Nibble) (s : State) : Host.Outcome State Fault Refusal :=
  writeFlagged x (s.reg x + s.reg y) (carryFlag (s.reg x) (s.reg y)) s

/-- 8XY5 (R127): VX minus VY. -/
def execSubReg (x y : Nibble) (s : State) : Host.Outcome State Fault Refusal :=
  writeFlagged x (s.reg x - s.reg y) (noBorrowFlag (s.reg x) (s.reg y)) s

/-- 8XY6 (R128): VX shifted in place; VY is not read. -/
def execShr (x _y : Nibble) (s : State) : Host.Outcome State Fault Refusal :=
  writeFlagged x (s.reg x >>> 1) (shiftedOutRight (s.reg x)) s

/-- 8XY7 (R129): VY minus VX. -/
def execSubnReg (x y : Nibble) (s : State) : Host.Outcome State Fault Refusal :=
  writeFlagged x (s.reg y - s.reg x) (noBorrowFlag (s.reg y) (s.reg x)) s

/-- 8XYE (R130): VX shifted in place; VY is not read. -/
def execShl (x _y : Nibble) (s : State) : Host.Outcome State Fault Refusal :=
  writeFlagged x (s.reg x <<< 1) (shiftedOutLeft (s.reg x)) s

/-- CXNN (R131): `rand8` is a free value, the next draw (log entry 2). -/
def execRnd (x : Nibble) (nn : Byte) (s : State) : Host.Outcome State Fault Refusal :=
  writeReg x (Config.rand8 s.draws &&& nn) s.countDraw

end Sys2Proof.Machine
end

