-- ==== Sys2Proof/Machine/Display.lean ====
section
/-! DEFINITION. The display instructions: 00E0 and DXYN (R170 to R174). -/

namespace Sys2Proof.Machine

/-- 00E0 (R170). -/
def execCls (s : State) : Host.Outcome State Fault Refusal :=
  .next ((s.setFb Framebuffer.clear).setDirty true).advance

/-- DXYN (R171): both coordinates and all N bytes are read before anything is written; VF is written last. -/
def execDrw (x y n : Nibble) (s : State) : Host.Outcome State Fault Refusal :=
  match memReadRange s (indexBase s) n.toNat with
  | .ok rows =>
    let drawn := drawSprite s.fb (s.reg x).toNat (s.reg y).toNat rows
    .next (((s.setFb drawn.1).setFlag (collisionFlag drawn.2)).setDirty true).advance
  | .error e => takeFault s e

end Sys2Proof.Machine
end

