-- ==== Sys2Proof/Machine/Flow.lean ====
section
/-! DEFINITION. Control transfer: 00EE, 1NNN, 2NNN, BNNN and the four register skips (R100 to R108). -/

namespace Sys2Proof.Machine

/-- 00EE (R100): pop, then PC <- popped + 2; StackUnderflow when SP = 0. -/
def execRet (s : State) : Host.Outcome State Fault Refusal :=
  match s.pop with
  | some (w, t) => .next (t.setPc (w + 2))
  | none => takeFault s (.stackUnderflow s.sp.val)

/-- 1NNN (R101). -/
def execJp (nnn : BitVec 12) (s : State) : Host.Outcome State Fault Refusal :=
  .next (s.setPc (absolute nnn))

/-- 2NNN (R102): the call's own address is pushed; StackOverflow when SP = 16. -/
def execCall (nnn : BitVec 12) (s : State) : Host.Outcome State Fault Refusal :=
  match s.push s.pc with
  | some t => .next (t.setPc (absolute nnn))
  | none => takeFault s (.stackOverflow s.sp.val)

/-- BNNN (R103). -/
def execJpV0 (nnn : BitVec 12) (s : State) : Host.Outcome State Fault Refusal :=
  .next (s.setPc (v0Target s nnn))

/-- 3XNN (R104). -/
def execSeImm (x : Nibble) (nn : Byte) (s : State) : Host.Outcome State Fault Refusal :=
  .next (s.skipIf (s.reg x == nn))

/-- 4XNN (R105). -/
def execSneImm (x : Nibble) (nn : Byte) (s : State) : Host.Outcome State Fault Refusal :=
  .next (s.skipIf (s.reg x != nn))

/-- 5XY0 (R106); the low nibble is not examined (R69). -/
def execSeReg (x y _n : Nibble) (s : State) : Host.Outcome State Fault Refusal :=
  .next (s.skipIf (s.reg x == s.reg y))

/-- 9XY0 (R107); the low nibble is not examined (R69). -/
def execSneReg (x y _n : Nibble) (s : State) : Host.Outcome State Fault Refusal :=
  .next (s.skipIf (s.reg x != s.reg y))

end Sys2Proof.Machine
end

