-- ==== Sys2Proof/Machine/IndexMemory.lean ====
section
/-! DEFINITION. The index register and memory instructions: ANNN, FX1E, FX29, FX33, FX55, FX65 (R150 to R156). -/

namespace Sys2Proof.Machine

/-- ANNN (R150). -/
def execLdI (nnn : BitVec 12) (s : State) : Host.Outcome State Fault Refusal :=
  .next (s.setI (absolute nnn)).advance

/-- FX1E (R151): the flag compares the unreduced sum with 0xFFF and is written last. -/
def execAddI (x : Nibble) (s : State) : Host.Outcome State Fault Refusal :=
  .next ((s.setI (s.i + (s.reg x).setWidth 16)).setFlag (indexOverflowFlag s.i (s.reg x))).advance

/-- FX29 (R152). -/
def execLdF (x : Nibble) (s : State) : Host.Outcome State Fault Refusal :=
  .next (s.setI (glyphAddress (s.reg x))).advance

/-- FX33 (R153): three digits at I, I+1, I+2; I is unchanged. -/
def execLdB (x : Nibble) (s : State) : Host.Outcome State Fault Refusal :=
  match memWriteRange s (indexBase s) (bcdDigits (s.reg x)) with
  | .ok t => .next t.advance
  | .error e => takeFault s e

/-- FX55 (R154): V0..VX at I.., then I moves past them. -/
def execStRegs (x : Nibble) (s : State) : Host.Outcome State Fault Refusal :=
  match memWriteRange s (indexBase s) (s.firstRegs (rangeLength x)) with
  | .ok t => .next (t.setI (indexAfterRange s x)).advance
  | .error e => takeFault s e

/-- FX65 (R155): V0..VX from I.., then I moves past them. -/
def execLdRegs (x : Nibble) (s : State) : Host.Outcome State Fault Refusal :=
  match memReadRange s (indexBase s) (rangeLength x) with
  | .ok bytes => .next ((s.setRegs 0 bytes).setI (indexAfterRange s x)).advance
  | .error e => takeFault s e

end Sys2Proof.Machine
end

