-- ==== Sys2Proof/Machine/KeypadTimers.lean ====
section
/-! DEFINITION. The keypad and timer instructions: EX9E, EXA1, FX0A, FX07, FX15, FX18 (R190 to R195). -/

namespace Sys2Proof.Machine

/-- EX9E (R190): KeyIndexFault when V[X] is above 15. -/
def execSkp (x : Nibble) (s : State) : Host.Outcome State Fault Refusal :=
  match keyOf (s.reg x) with
  | some k => .next (s.skipIf (s.keyDown k))
  | none => takeFault s (.keyIndexFault (s.reg x))

/-- EXA1 (R191): KeyIndexFault when V[X] is above 15. -/
def execSknp (x : Nibble) (s : State) : Host.Outcome State Fault Refusal :=
  match keyOf (s.reg x) with
  | some k => .next (s.skipIf (!s.keyDown k))
  | none => takeFault s (.keyIndexFault (s.reg x))

/-- FX07 (R193). -/
def execLdVxDt (x : Nibble) (s : State) : Host.Outcome State Fault Refusal :=
  .next (s.setReg x s.dt).advance

/-- FX0A (R192): with no key down nothing changes, PC included; else one pressed key, a free choice among those pressed
(log entry 3). -/
def execLdVxK (x : Nibble) (s : State) : Host.Outcome State Fault Refusal :=
  match pressedKeys s with
  | [] => .next s
  | k :: ks => .next ((s.countDraw.setReg x ((chooseKey (Config.keyPick s.draws) k ks).setWidth 8)).advance)

/-- FX15 (R194). -/
def execLdDtVx (x : Nibble) (s : State) : Host.Outcome State Fault Refusal :=
  .next (s.setDt (s.reg x)).advance

/-- FX18 (R195); BEEP is not changed. -/
def execLdStVx (x : Nibble) (s : State) : Host.Outcome State Fault Refusal :=
  .next (s.setSt (s.reg x)).advance

end Sys2Proof.Machine
end

