-- ==== Sys2Proof/Machine/Cycle.lean ====
section
/-! DEFINITION. The body of one STEP (R80) and the placing of an instruction for it; `Step.lean` gives them the host's names. -/

namespace Sys2Proof.Machine

/-- R80, in R237's order. While HALTED nothing changes (R81); a fetch outside MEM takes the fatal entry (R45, R238); an
unrecognised word has R86's effect; a decoded instruction executes. -/
def cycle (s : State) : Host.Outcome State Fault Refusal :=
  if s.halted then .next s
  else
    match fetch s with
    | .error cause => takeFault s cause
    | .ok word =>
      match decodeWord word with
      | .error _ => execUnknown word s
      | .ok i => exec i s

/-- Where an instruction placed for the next fetch goes: PC, or the entry point when nothing can be fetched at PC (R45). -/
def fetchAddress (s : State) : Word := if s.pc.toNat ≤ 0xFFE then s.pc else 0x200

/-- The bytes stored where the next STEP fetches, with HALTED false so that it fetches at all (R81). -/
def placeForFetch (s : State) (bytes : List Byte) : State :=
  ({ s with pc := fetchAddress s, halted := false }).putBytes (fetchAddress s).toNat bytes

end Sys2Proof.Machine
end

