-- ==== Sys2Proof/Machine/Step.lean ====
section
/-! DEFINITION. The STEP command (R80) under the host's name, and the state with a given word placed for it. -/

namespace Sys2Proof.Machine

/-- One STEP command (R80, R87). -/
def step (s : State) : Host.Outcome State Fault Refusal := cycle s

/-- The state with the table's word `w` stored where `step` fetches next. The fetch needs a PC at or below 0xFFE and HALTED
false (R45, R81), so a PC above it is set to the entry point 0x200 and HALTED is cleared; nothing else but the two bytes
changes (log entry 8). -/
def State.withFetchWord (s : State) (nbits w : Nat) : State := placeForFetch s (tableBytes nbits w)

end Sys2Proof.Machine
end

