-- ==== Sys2Proof/Machine/Commands.lean ====
section
/-! DEFINITION. The host's six commands, what each returns, and the four observation ports (R210 to R216, R242). `step` is
the command STEP; the model lets the caller issue the commands in any order, which is the parameter `schedule` (R4, R216;
log entry 5). -/

namespace Sys2Proof.Machine

/-- The six commands of R210. STEP's two draws are free values of Config (R88). -/
inductive Command where
  | reset
  | load (bytes : List Byte)
  | step
  | tick
  | setKey (index : Nibble) (pressed : Bool)
  | clearDirty
  deriving DecidableEq, Repr

/-- The five outcomes of STEP (R87). -/
inductive StepReply where
  | ok
  | waiting
  | unknown
  | fatal
  | haltedNoop
  deriving DecidableEq, Repr

/-- What a command returns (R210's column `returns`). -/
inductive Reply where
  | nothing
  | loaded
  | romTooLarge
  | stepped (reply : StepReply)
  | beep (b : Bool)
  deriving DecidableEq, Repr

/-! ### The commands -/

/-- R211: the most bytes a program may have. -/
def maxProgram : Nat := 3584

/-- LOAD (R211, R231): the bytes at 0x200 and up, unchecked by R44; too many write nothing but LAST_ERROR. -/
def State.hostLoad (s : State) (bytes : List Byte) : State :=
  if maxProgram < bytes.length then s.recordError (.romTooLarge bytes.length) else s.putBytes 0x200 bytes

/-- A timer one tick later: floored at 0 (R17, R242). -/
def countDown (b : Byte) : Byte := if b = 0 then 0 else b - 1

/-- R242: whether the sound timer is exactly 1 on entry to TICK. -/
def beepOnTick (s : State) : Bool := s.st == 1

/-- TICK (R242): acts whether or not HALTED is set. -/
def State.hostTick (s : State) : State :=
  ((s.setDt (countDown s.dt)).setSt (countDown s.st)).setBeep (beepOnTick s)

/-- One command as a state transition (R216). -/
def perform (c : Command) (s : State) : Host.Outcome State Fault Refusal :=
  match c with
  | .reset => .next s.hostReset
  | .load bytes => .next (s.hostLoad bytes)
  | .step => step s
  | .tick => .next s.hostTick
  | .setKey index pressed => .next (s.setKey index pressed)
  | .clearDirty => .next (s.setDirty false)

/-- Commands one after another (R216): the parameter `schedule` is the list. -/
def runCommands : List Command → State → Host.Outcome State Fault Refusal
  | [], s => .next s
  | c :: cs, s =>
    match perform c s with
    | .next t => runCommands cs t
    | .fault r => .fault r
    | .refused r => .refused r

/-! ### What a command returns -/

/-- R192: FX0A found no key down. -/
def waits (i : Instr) (s : State) : Bool :=
  match i with
  | .ldVxK _ => (pressedKeys s).isEmpty
  | _ => false

/-- The outcome of executing `i`: Fatal when it raised a fatal fault, Waiting for R192, else Ok. -/
def executeReply (i : Instr) (s : State) : StepReply :=
  match exec i s with
  | .next t => if t.halted then .fatal else if waits i s then .waiting else .ok
  | .fault _ => .fatal
  | .refused _ => .fatal

/-- The outcome STEP returns from state `s` (R80, R87). -/
def stepReply (s : State) : StepReply :=
  if s.halted then .haltedNoop
  else
    match fetch s with
    | .error _ => .fatal
    | .ok word =>
      match decodeWord word with
      | .error _ => .unknown
      | .ok i => executeReply i s

/-- What the command returns when issued in state `s` (R210). -/
def reply (c : Command) (s : State) : Reply :=
  match c with
  | .reset => .nothing
  | .load bytes => if maxProgram < bytes.length then .romTooLarge else .loaded
  | .step => .stepped (stepReply s)
  | .tick => .beep (beepOnTick s)
  | .setKey _ _ => .nothing
  | .clearDirty => .nothing

/-! ### The observation ports (R214): reading one changes no state -/

/-- `framebuffer()`: cell `index` of FB, the pixel (x, y) at `y*64 + x`. -/
def portFramebuffer (s : State) (index : Fin 2048) : Bool := s.fb.cell (index.val % 64) (index.val / 64)

/-- `is_dirty()`. -/
def portIsDirty (s : State) : Bool := s.dirty

/-- `should_beep()`: what the most recent TICK returned. -/
def portShouldBeep (s : State) : Bool := s.beep

/-- `last_error()`. -/
def portLastError (s : State) : Option ErrorRecord := s.lastError

end Sys2Proof.Machine
end

