-- ==== Sys2Proof/Safety.lean ====
section
/-! DEFINITION. The terms claims are stated in: completing, frames, which instruction may write what, the sprite a draw
covers, the invariant every command keeps, and the conditions of R217. Written from the spec's own words and apart from the
meanings, so that the meanings can be held against them. -/

namespace Sys2Proof.Safety

open Sys2Proof.Machine

/-! ### Completing -/

/-- The instruction answers a next state, of which `P` holds. -/
def Completes (o : Host.Outcome State Fault Refusal) (P : State → Prop) : Prop := ∃ t, o = .next t ∧ P t

/-- R238: the state after a fatal fault is the state before with HALTED set and the record latched. -/
def fatalState (s : State) (cause : ErrorCause) : State :=
  { s with halted := true, lastError := some { cause := cause, pc := s.pc } }

/-- The instruction's row of R64's table, and its word by R74, which the decoder reads back. -/
def EncodedAs (i : Instr) (pattern mask word : Word) : Prop :=
  i.row = ⟨pattern, mask⟩ ∧ encode i = word ∧ decodeWord word = .ok i ∧ word &&& mask = pattern

/-! ### Frames -/

/-- Every byte of memory reads as before. -/
def SameBytes (s t : State) : Prop := ∀ a, t.readByte a = s.readByte a

/-- Every V register but those listed is unchanged. -/
def SameRegsBut (xs : List Nibble) (s t : State) : Prop := ∀ k, k ∉ xs → t.reg k = s.reg k

/-- `V[x] <- b` and the advance of R84 are the whole effect. -/
def WritesRegister (s : State) (x : Nibble) (b : Byte) (t : State) : Prop :=
  t.reg x = b ∧ SameRegsBut [x] s t ∧ t.pc.toNat = (s.pc.toNat + 2) % 65536 ∧ SameBytes s t ∧
    t = { s with v := t.v, pc := t.pc }

/-- The result goes to `V[x]`, then the flag to VF (R133), and the advance of R84; that is the whole effect. -/
def WritesFlagged (s : State) (x : Nibble) (result flag : Byte) (t : State) : Prop :=
  t.reg 15 = flag ∧ (x ≠ 15 → t.reg x = result) ∧ SameRegsBut [x, 15] s t ∧
    t.pc.toNat = (s.pc.toNat + 2) % 65536 ∧ SameBytes s t ∧ t = { s with v := t.v, pc := t.pc }

/-! ### Which instruction may write what (R10, R28) -/

/-- The registers an instruction may write: its named destinations, and VF for those of R28. -/
def mayWriteReg (i : Instr) (k : Nibble) : Bool :=
  match i with
  | .ldImm x _ | .addImm x _ | .ldReg x _ | .orReg x _ | .andReg x _ | .xorReg x _ | .rnd x _ | .ldVxDt x | .ldVxK x => k == x
  | .addReg x _ | .subReg x _ | .shr x _ | .subnReg x _ | .shl x _ => k == x || k == 15
  | .drw _ _ _ | .addI _ => k == 15
  | .ldRegs x => decide (k.toNat ≤ x.toNat)
  | .cls | .ret | .jp _ | .call _ | .seImm _ _ | .sneImm _ _ | .seReg _ _ _ | .sneReg _ _ _ | .ldI _ | .jpV0 _
  | .skp _ | .sknp _ | .ldDtVx _ | .ldStVx _ | .ldF _ | .ldB _ | .stRegs _ => false

/-- R10: the instructions that write `I`. -/
def mayWriteI : Instr → Bool
  | .ldI _ | .addI _ | .ldF _ | .stRegs _ | .ldRegs _ => true
  | _ => false

/-- R10, R15: the instruction that writes STACK. -/
def mayWriteStack : Instr → Bool
  | .call _ => true
  | _ => false

/-- R10, R16: the instructions that write SP. -/
def mayWriteSp : Instr → Bool
  | .call _ | .ret => true
  | _ => false

/-- R10, R19, R21: the instructions that write FB or DIRTY. -/
def mayWriteDisplay : Instr → Bool
  | .cls | .drw _ _ _ => true
  | _ => false

/-- R10, R48: the instructions that write MEM. -/
def mayStore : Instr → Bool
  | .ldB _ | .stRegs _ => true
  | _ => false

/-- The addresses an instruction stores to: three from I for FX33, X + 1 from I for FX55 (R48). -/
def storesAt (i : Instr) (s : State) (a : Nat) : Bool :=
  match i with
  | .ldB _ => decide (indexBase s ≤ a ∧ a < indexBase s + 3)
  | .stRegs x => decide (indexBase s ≤ a ∧ a < indexBase s + (x.toNat + 1))
  | _ => false

/-- R84: the instructions with a rule of their own for PC. -/
def hasOwnPcRule : Instr → Bool
  | .jp _ | .call _ | .jpV0 _ | .ret | .seImm _ _ | .sneImm _ _ | .seReg _ _ _ | .sneReg _ _ _ | .skp _ | .sknp _
  | .ldVxK _ => true
  | _ => false

/-- R104 to R107, R190, R191: the skip condition of a skip instruction; none where the instruction is no skip, or names no
key. -/
def skipCondition (i : Instr) (s : State) : Option Bool :=
  match i with
  | .seImm x nn => some (decide (s.reg x = nn))
  | .sneImm x nn => some (decide (s.reg x ≠ nn))
  | .seReg x y _ => some (decide (s.reg x = s.reg y))
  | .sneReg x y _ => some (decide (s.reg x ≠ s.reg y))
  | .skp x => if h : (s.reg x).toNat < 16 then some s.key[(s.reg x).toNat] else none
  | .sknp x => if h : (s.reg x).toNat < 16 then some (!s.key[(s.reg x).toNat]) else none
  | _ => none

/-! ### Sprites (R171, R172) -/

/-- Pixel (px, py) as the host reads it: cell `py*64 + px` of the framebuffer port (R19, R172, R214, D19). -/
def hostPixel (s : State) (px : Fin 64) (py : Fin 32) : Bool :=
  portFramebuffer s ⟨py.val * 64 + px.val, by have := px.isLt; have := py.isLt; omega⟩

/-- Bit 7 - c of the byte at I + r is a 1: sprite pixel (c, r) is set. -/
def spriteBit (s : State) (r c : Nat) : Bool := ((s.readByte (indexBase s + r)).getD 0).getLsbD (7 - c)

/-- Some set sprite pixel of the N rows lands on screen pixel (px, py). -/
def spriteCovers (s : State) (x y n : Nibble) (px py : Nat) : Prop :=
  ∃ r c, r < n.toNat ∧ c < 8 ∧ spriteBit s r c = true ∧
    ((s.reg x).toNat + c) % 64 = px ∧ ((s.reg y).toNat + r) % 32 = py

/-- The N rows at I are all in MEM, or there is none (R171). -/
def spriteInMemory (s : State) (n : Nibble) : Prop := n.toNat = 0 ∨ indexBase s + n.toNat ≤ 0x1000

/-! ### The invariant -/

/-- R41, D7: no cell below 0x200 differs from what RESET leaves there. -/
def lowCellsUntouched (s : State) : Prop := ∀ cell ∈ s.mem, 0x200 ≤ cell.1

/-- R22, R23, R230: a halted machine shows an error, and a fatal record is shown only by a halted machine. -/
def latchesAgree (s : State) : Prop :=
  (s.halted = true → ∃ r, s.lastError = some r) ∧
    (∀ r, s.lastError = some r → r.cause.fatal = true → s.halted = true)

/-- What every command keeps. -/
def Inv (s : State) : Prop := s.memWf = true ∧ lowCellsUntouched s ∧ latchesAgree s

/-! ### Ends of a run (R217) -/

/-- A run is good as long as no fatal fault has halted the machine. -/
def Running (s : State) : Prop := s.halted = false

/-- The instruction at PC is a 1NNN whose NNN equals PC. -/
def AtSelfJump (s : State) : Prop := ∃ w nnn, fetch s = .ok w ∧ decodeWord w = .ok (.jp nnn) ∧ absolute nnn = s.pc

/-- The instruction at PC is FX0A and no key is down. -/
def AtKeyWait (s : State) : Prop := ∃ w x, fetch s = .ok w ∧ decodeWord w = .ok (.ldVxK x) ∧ ∀ k, s.keyDown k = false

end Sys2Proof.Safety
end

