-- ==== Sys2Proof/Certificates/Slice0/Obligations.lean ====
section
/-! DEFINITION. The statements for the provers. Each docstring names the rule of spec/ it formalises and, where a clause rests on
a decision the spec marks as its own or on a choice of the model, that decision or log entry. -/

open Sys2Proof Sys2Proof.Machine Sys2Proof.Safety

/-! ## Encoding and decoding -/

/-- Decoding an encoded instruction gives it back, at every operand: no bit is dropped (R61, R74). The patterns are those of
R64, seventeen of which the spec takes from general knowledge (D36), with D14 and D15. -/
def Obligations.DecodeOfEncode : Prop :=
  ∀ i : Instr, decodeWord (encode i) = .ok i ∧ ∀ rest, decode (encodeBytes i ++ rest) = .ok (i, rest)

/-- Every recognised word is the encoding of the instruction it decodes to, so each word has one meaning (R61, R74). -/
def Obligations.EncodeOfDecode : Prop :=
  ∀ (w : Word) (i : Instr), decodeWord w = .ok i → encode i = w

/-- The decoder rejects exactly the words of R70, each by name, and gives every other word an instruction. Rests on D14, D15
and D36. -/
def Obligations.UnrecognisedWordsAreExactlyRejected : Prop :=
  ∀ w : Word,
    (Word.recognised w = false ↔ decodeWord w = .error (.unknownOpcode w)) ∧
    (Word.recognised w = true ↔ ∃ i, decodeWord w = .ok i)

/-- R64: a word selects the row of the instruction it decodes to, and no other row of the table; an unrecognised word
selects none. Rests on D14, D15 and D36. -/
def Obligations.DecodedWordSelectsItsRowAlone : Prop :=
  ∀ w : Word,
    (∀ i, decodeWord w = .ok i → ∀ r ∈ opcodeRows, r.selects w = true ↔ r = i.row) ∧
    (∀ e, decodeWord w = .error e → ∀ r ∈ opcodeRows, r.selects w = false)

/-- The words the spec writes out decode to the instructions they stand for (R74's worked encodings; the examples of R100,
R101, R102, R127, R151, R154, R171, R190, R192). -/
def Obligations.SpecWordsDecode : Prop :=
  decodeWord 0x6005#16 = .ok (.ldImm 0 0x05) ∧ decodeWord 0x6103#16 = .ok (.ldImm 1 0x03) ∧
  decodeWord 0x8014#16 = .ok (.addReg 0 1) ∧ decodeWord 0x00E0#16 = .ok .cls ∧ decodeWord 0x00EE#16 = .ok .ret ∧
  decodeWord 0x1ABC#16 = .ok (.jp 0xABC) ∧ decodeWord 0x220E#16 = .ok (.call 0x20E) ∧
  decodeWord 0x8125#16 = .ok (.subReg 1 2) ∧ decodeWord 0xF11E#16 = .ok (.addI 1) ∧
  decodeWord 0xF255#16 = .ok (.stRegs 2) ∧ decodeWord 0xD012#16 = .ok (.drw 0 1 2) ∧
  decodeWord 0xE19E#16 = .ok (.skp 1) ∧ decodeWord 0xF30A#16 = .ok (.ldVxK 3)

/-- R60: every instruction is two bytes, the high byte first, at consecutive addresses, whatever the state. -/
def Obligations.InstructionsAreTwoBytesHighFirst : Prop :=
  (∀ (bytes rest : List Byte) (i : Instr), decode bytes = .ok (i, rest) →
    ∃ hi lo : Byte, bytes = hi :: lo :: rest ∧ (encode i).toNat = hi.toNat * 256 + lo.toNat) ∧
  (∀ (s : State) (hi lo : Byte), s.readByte s.pc.toNat = some hi → s.readByte (s.pc.toNat + 1) = some lo →
    ∃ w, fetch s = .ok w ∧ w.toNat = hi.toNat * 256 + lo.toNat ∧
      ∀ (i : Instr) (rest : List Byte), decode (hi :: lo :: rest) = .ok (i, rest) ↔ decodeWord w = .ok i)

/-! ## The step -/

/-- R80: when the two bytes at PC decode to `i`, a STEP of a machine that is not halted is `exec i`, with nothing around it. -/
def Obligations.StepRunsTheDecodedInstruction : Prop :=
  ∀ (s : State) (hi lo : Byte) (i : Instr) (rest : List Byte),
    s.halted = false → s.readByte s.pc.toNat = some hi → s.readByte (s.pc.toNat + 1) = some lo →
    decode (hi :: lo :: rest) = .ok (i, rest) → step s = exec i s

/-- R86: the whole effect of an unrecognised word. The fields of the record rest on D30, the halt gate on D4. -/
def Obligations.UnknownWordIsSkippedAndRecorded : Prop :=
  ∀ (s : State) (hi lo : Byte) (w : Word),
    s.halted = false → s.readByte s.pc.toNat = some hi → s.readByte (s.pc.toNat + 1) = some lo →
    w.toNat = hi.toNat * 256 + lo.toNat → Word.recognised w = false →
    Completes (step s) fun t =>
      t.lastError = some { cause := .unknownOpcode w, pc := s.pc } ∧ t.pc.toNat = (s.pc.toNat + 2) % 65536 ∧
      t = { s with lastError := t.lastError, pc := t.pc }

/-- R45, R47, R81: a halted STEP changes nothing; a fetch from PC above 0xFFE is the fatal MemoryFault of kind fetch; at any
other PC, odd or even, the word is big-endian. Rests on D4, D6, D8, D23 and D31. -/
def Obligations.FetchFaultsExactlyAboveMemory : Prop :=
  ∀ s : State,
    (s.halted = true → step s = .next s) ∧
    (s.halted = false → 0xFFE < s.pc.toNat →
      step s = .next (fatalState s (.memoryFault .fetch s.pc.toNat))) ∧
    (s.pc.toNat ≤ 0xFFE → ∃ hi lo w, s.readByte s.pc.toNat = some hi ∧ s.readByte (s.pc.toNat + 1) = some lo ∧
      fetch s = .ok w ∧ w.toNat = hi.toNat * 256 + lo.toNat)

/-- The spec gives every STEP, from every state, and every instruction a next state: the model never stops (R80, R86, R238).
Rests on D4 to D7, D16 (the fatal entry is a next state). -/
def Obligations.EveryStepAnswersNext : Prop :=
  (∀ s : State, ∃ t, step s = .next t) ∧ ∀ (i : Instr) (s : State), ∃ t, exec i s = .next t

/-- R89: a STEP that halts the machine changes nothing else but LAST_ERROR, whose record is fatal and names the PC. Rests on
D4, D5 and D23. -/
def Obligations.FatalStepsArePrecise : Prop :=
  ∀ s t : State, step s = .next t → s.halted = false → t.halted = true →
    ∃ cause, cause.fatal = true ∧ t = fatalState s cause

/-- R84: every instruction but those with a rule of their own advances PC by 2, unless it faulted. Rests on D9. -/
def Obligations.PlainInstructionsAdvanceByTwo : Prop :=
  ∀ (i : Instr) (s t : State), hasOwnPcRule i = false → s.halted = false → exec i s = .next t →
    (t.halted = false → t.pc.toNat = (s.pc.toNat + 2) % 65536) ∧ (t.halted = true → t.pc = s.pc)

/-- R47: only 1NNN, 2NNN, BNNN and 00EE can make an even PC odd. The spec marks this as derived from R84. -/
def Obligations.EvenPcStaysEvenWithoutJumps : Prop :=
  ∀ (i : Instr) (s t : State), exec i s = .next t → s.pc.toNat % 2 = 0 →
    (∀ nnn, i ≠ .jp nnn) → (∀ nnn, i ≠ .call nnn) → (∀ nnn, i ≠ .jpV0 nnn) → i ≠ .ret → t.pc.toNat % 2 = 0

/-- R217: at a self-jump every STEP leaves the state unchanged, and at an FX0A with no key down too (R192). The two
conditions are the spec's own (D32). -/
def Obligations.EndsOfRunAreFixpoints : Prop :=
  ∀ s : State, Running s → (AtSelfJump s ∨ AtKeyWait s) → step s = .next s

/-! ## Control transfer -/

/-- R85: each of the six skips advances PC by 4 when its condition holds and by 2 otherwise, and does nothing else: the
skipped word is not looked at. The conditions are those of R104 to R107, R190 and R191; which pattern is which test is general
knowledge (G1, D36), and that 5XYN and 9XYN with N not 0 are skips rests on D15 (log entries 12 and 14). A key skip with V[X]
above 15 has no condition: `KeySkipsFaultAboveFifteen` is that form. -/
def Obligations.SkipsAdvanceByFourOrTwo : Prop :=
  ∀ (i : Instr) (s : State) (c : Bool), skipCondition i s = some c →
    Completes (exec i s) fun t =>
      t.pc.toNat = (s.pc.toNat + if c then 4 else 2) % 65536 ∧ SameBytes s t ∧ t = { s with pc := t.pc }

/-- R100: 00EE pops the call's address and resumes 2 after it; the popped entry keeps its value; with SP = 0 it raises
StackUnderflow and changes nothing else. That the underflow sets HALTED, and the fields of its record, are R234's and R238's by
the spec's decisions D4 and D23 (log entries 10 and 14). -/
def Obligations.ReturnPopsOrUnderflows : Prop :=
  EncodedAs .ret 0x00EE#16 0xFFFF#16 0x00EE#16 ∧
  ∀ s : State,
    (s.sp.val = 0 → exec .ret s = .next (fatalState s (.stackUnderflow 0))) ∧
    (∀ (h : 0 < s.sp.val), Completes (exec .ret s) fun t =>
      t.sp.val = s.sp.val - 1 ∧
      t.pc.toNat = ((s.stack[s.sp.val - 1]'(by have := s.sp.isLt; omega)).toNat + 2) % 65536 ∧
      SameBytes s t ∧ t = { s with sp := t.sp, pc := t.pc })

/-- R102: 2NNN pushes its own address and jumps; with SP = 16 it raises StackOverflow and changes nothing else. That the
overflow sets HALTED, and the fields of its record, are R233's and R238's by the spec's decisions D4 and D23 (log entries 10
and 14). -/
def Obligations.CallPushesOrOverflows : Prop :=
  ∀ (s : State) (nnn : BitVec 12),
    EncodedAs (.call nnn) 0x2000#16 0xF000#16 (0x2000#16 ||| nnn.setWidth 16) ∧
    (s.sp.val = 16 → exec (.call nnn) s = .next (fatalState s (.stackOverflow 16))) ∧
    (s.sp.val < 16 → Completes (exec (.call nnn) s) fun t =>
      (∀ k : Fin 16, t.stack[k] = if k.val = s.sp.val then s.pc else s.stack[k]) ∧
      t.sp.val = s.sp.val + 1 ∧ t.pc.toNat = nnn.toNat ∧ SameBytes s t ∧
      t = { s with stack := t.stack, sp := t.sp, pc := t.pc })

/-- R108: a return after a call, with whatever came between leaving SP and the pushed entry alone, resumes 2 after the call
and leaves SP as it was before the call. -/
def Obligations.ReturnUndoesCall : Prop :=
  ∀ (s t u : State) (nnn : BitVec 12) (k : Fin 16), k.val = s.sp.val →
    exec (.call nnn) s = .next t → u.sp = t.sp → u.stack[k] = t.stack[k] →
    Completes (exec .ret u) fun w => w.pc.toNat = (s.pc.toNat + 2) % 65536 ∧ w.sp = s.sp

/-- R101, R103: 1NNN goes to NNN and BNNN to NNN + V0, not cut to 12 bits; nothing else changes. The patterns rest on D36,
the width on D9. -/
def Obligations.JumpsSetOnlyPc : Prop :=
  ∀ (s : State) (nnn : BitVec 12),
    (Completes (exec (.jp nnn) s) fun t => t.pc.toNat = nnn.toNat ∧ SameBytes s t ∧ t = { s with pc := t.pc }) ∧
    (Completes (exec (.jpV0 nnn) s) fun t =>
      t.pc.toNat = nnn.toNat + (s.reg 0).toNat ∧ SameBytes s t ∧ t = { s with pc := t.pc })

/-! ## Register load, arithmetic, logic, shifts, random -/

/-- R120: 6XNN sets V[X] to the immediate. -/
def Obligations.LoadImmediateWritesTheByte : Prop :=
  ∀ (s : State) (x : Nibble) (nn : Byte),
    EncodedAs (.ldImm x nn) 0x6000#16 0xF000#16 (0x6000#16 ||| (x.setWidth 16 <<< 8) ||| nn.setWidth 16) ∧
    Completes (exec (.ldImm x nn) s) (WritesRegister s x nn)

/-- R121 to R125: add immediate, copy, or, and, xor write V[X] and no flag. That VF stays rests on D12; the patterns on
D36. -/
def Obligations.AddImmediateCopyAndLogicSetNoFlag : Prop :=
  ∀ (s : State) (x y : Nibble) (nn : Byte),
    Completes (exec (.addImm x nn) s) (WritesRegister s x (BitVec.ofNat 8 ((s.reg x).toNat + nn.toNat))) ∧
    Completes (exec (.ldReg x y) s) (WritesRegister s x (s.reg y)) ∧
    Completes (exec (.orReg x y) s) (WritesRegister s x (s.reg x ||| s.reg y)) ∧
    Completes (exec (.andReg x y) s) (WritesRegister s x (s.reg x &&& s.reg y)) ∧
    Completes (exec (.xorReg x y) s) (WritesRegister s x (s.reg x ^^^ s.reg y))

/-- R126: 8XY4 sets VF to 1 exactly when the unsigned sum exceeds 255, and V[X], unless it is VF, to the sum mod 256. That
the flag is written last (R133) is the spec's decision D10 (log entry 14). -/
def Obligations.AddSetsCarry : Prop :=
  ∀ (s : State) (x y : Nibble),
    EncodedAs (.addReg x y) 0x8004#16 0xF00F#16 (0x8004#16 ||| (x.setWidth 16 <<< 8) ||| (y.setWidth 16 <<< 4)) ∧
    Completes (exec (.addReg x y) s)
      (WritesFlagged s x (BitVec.ofNat 8 (((s.reg x).toNat + (s.reg y).toNat) % 256))
        (if (s.reg x).toNat + (s.reg y).toNat > 255 then 1 else 0))

/-- R127, R129: VX minus VY and VY minus VX, modulo 256, with VF = 1 exactly when there is no borrow. Which pattern is which
order is general knowledge (G2, D36); the write order rests on D10. -/
def Obligations.SubtractionsSetNoBorrow : Prop :=
  ∀ (s : State) (x y : Nibble),
    Completes (exec (.subReg x y) s)
      (WritesFlagged s x (BitVec.ofNat 8 (((s.reg x).toNat + 256 - (s.reg y).toNat) % 256))
        (if (s.reg x).toNat ≥ (s.reg y).toNat then 1 else 0)) ∧
    Completes (exec (.subnReg x y) s)
      (WritesFlagged s x (BitVec.ofNat 8 (((s.reg y).toNat + 256 - (s.reg x).toNat) % 256))
        (if (s.reg y).toNat ≥ (s.reg x).toNat then 1 else 0))

/-- R128, R130: the shifts act on V[X] alone, whatever Y, and VF receives the original bit shifted out. Rests on D10, D11 and
D36. -/
def Obligations.ShiftsMoveOneBitIntoVf : Prop :=
  ∀ (s : State) (x y : Nibble),
    Completes (exec (.shr x y) s)
      (WritesFlagged s x (BitVec.ofNat 8 ((s.reg x).toNat / 2)) (BitVec.ofNat 8 ((s.reg x).toNat % 2))) ∧
    Completes (exec (.shl x y) s)
      (WritesFlagged s x (BitVec.ofNat 8 ((s.reg x).toNat * 2 % 256)) (BitVec.ofNat 8 ((s.reg x).toNat / 128)))

/-- R131: CXNN sets V[X] to the next draw and NN; every bit clear in NN is clear in the result. The draw is a free value (D3;
log entries 2 and 4), so the statement holds whatever it is. -/
def Obligations.RandomIsTheDrawMasked : Prop :=
  ∀ (s : State) (x : Nibble) (nn : Byte),
    Completes (exec (.rnd x nn) s) fun t =>
      t.reg x = Config.rand8 s.draws &&& nn ∧ t.reg x &&& ~~~nn = 0 ∧ SameRegsBut [x] s t ∧
      t.pc.toNat = (s.pc.toNat + 2) % 65536 ∧ SameBytes s t ∧ t.draws = s.draws + 1 ∧
      t = { s with v := t.v, pc := t.pc, draws := t.draws }

/-- R11, R28: no instruction writes a V register but its named destinations and, for those of R28's table, VF. Rests on D10
and D12. -/
def Obligations.RegistersChangeOnlyAsNamed : Prop :=
  ∀ (i : Instr) (s t : State) (k : Nibble), exec i s = .next t → mayWriteReg i k = false → t.reg k = s.reg k

/-! ## The index register and memory -/

/-- R150, R152: ANNN sets I to NNN and FX29 to five times the whole byte V[X]; nothing else changes. Rests on D21 and D36. -/
def Obligations.IndexLoadsSetOnlyI : Prop :=
  ∀ (s : State) (nnn : BitVec 12) (x : Nibble),
    (Completes (exec (.ldI nnn) s) fun t =>
      t.i.toNat = nnn.toNat ∧ t.pc.toNat = (s.pc.toNat + 2) % 65536 ∧ SameBytes s t ∧
      t = { s with i := t.i, pc := t.pc }) ∧
    (Completes (exec (.ldF x) s) fun t =>
      t.i.toNat = 5 * (s.reg x).toNat ∧ t.pc.toNat = (s.pc.toNat + 2) % 65536 ∧ SameBytes s t ∧
      t = { s with i := t.i, pc := t.pc })

/-- R151: FX1E adds the old V[X] to I modulo 65536 and sets VF to 1 exactly when the unreduced sum exceeds 0xFFF. Rests on
D9, D10 and D13. -/
def Obligations.IndexAddSetsOverflow : Prop :=
  ∀ (s : State) (x : Nibble),
    Completes (exec (.addI x) s) fun t =>
      t.i.toNat = (s.i.toNat + (s.reg x).toNat) % 65536 ∧
      t.reg 15 = (if s.i.toNat + (s.reg x).toNat > 0xFFF then 1 else 0) ∧ SameRegsBut [15] s t ∧
      t.pc.toNat = (s.pc.toNat + 2) % 65536 ∧ SameBytes s t ∧ t = { s with v := t.v, i := t.i, pc := t.pc }

/-- R153: FX33 writes hundreds, tens and ones at I, I+1, I+2 and nothing else, or faults with nothing written at the first
byte that cannot be. The digit order is general knowledge (G5); the faults rest on D4 to D7, their record on D23. -/
def Obligations.BcdStoresThreeDigitsOrFaults : Prop :=
  ∀ (s : State) (x : Nibble), s.memWf = true →
    (0x200 ≤ indexBase s → indexBase s + 2 ≤ 0xFFF → Completes (exec (.ldB x) s) fun t =>
      t.readByte (indexBase s) = some (BitVec.ofNat 8 ((s.reg x).toNat / 100)) ∧
      t.readByte (indexBase s + 1) = some (BitVec.ofNat 8 ((s.reg x).toNat / 10 % 10)) ∧
      t.readByte (indexBase s + 2) = some (BitVec.ofNat 8 ((s.reg x).toNat % 10)) ∧
      (∀ a, a < indexBase s ∨ indexBase s + 2 < a → t.readByte a = s.readByte a) ∧
      t.pc.toNat = (s.pc.toNat + 2) % 65536 ∧ t = { s with mem := t.mem, pc := t.pc }) ∧
    (indexBase s < 0x200 →
      exec (.ldB x) s = .next (fatalState s (.memoryFault .protectedWrite (indexBase s)))) ∧
    (0x200 ≤ indexBase s → 0xFFF < indexBase s + 2 →
      exec (.ldB x) s = .next (fatalState s (.memoryFault .write (max (indexBase s) 0x1000))))

/-- R154: FX55 stores V0 to VX at I and up and moves I past them, or faults with nothing written and I unchanged. The faults
are R44's, R235's and R238's by the spec's decisions D4 to D7, their record by D23 (log entries 10 and 14). -/
def Obligations.StoreRegistersWritesTheRangeOrFaults : Prop :=
  ∀ (s : State) (x : Nibble), s.memWf = true →
    EncodedAs (.stRegs x) 0xF055#16 0xF0FF#16 (0xF055#16 ||| (x.setWidth 16 <<< 8)) ∧
    (0x200 ≤ indexBase s → indexBase s + x.toNat ≤ 0xFFF → Completes (exec (.stRegs x) s) fun t =>
      (∀ k : Nibble, k.toNat ≤ x.toNat → t.readByte (indexBase s + k.toNat) = some (s.reg k)) ∧
      (∀ a, a < indexBase s ∨ indexBase s + x.toNat < a → t.readByte a = s.readByte a) ∧
      t.i.toNat = (indexBase s + x.toNat + 1) % 65536 ∧ t.pc.toNat = (s.pc.toNat + 2) % 65536 ∧
      t = { s with mem := t.mem, i := t.i, pc := t.pc }) ∧
    (indexBase s < 0x200 →
      exec (.stRegs x) s = .next (fatalState s (.memoryFault .protectedWrite (indexBase s)))) ∧
    (0x200 ≤ indexBase s → 0xFFF < indexBase s + x.toNat →
      exec (.stRegs x) s = .next (fatalState s (.memoryFault .write (max (indexBase s) 0x1000))))

/-- R155: FX65 loads V0 to VX from I and up, below 0x200 too, and moves I past them, or faults with nothing loaded and I
unchanged. The fault is R43's, R235's and R238's by the spec's decisions D4 to D6, its record by D23 (log entries 10 and 14). -/
def Obligations.LoadRegistersReadsTheRangeOrFaults : Prop :=
  ∀ (s : State) (x : Nibble),
    EncodedAs (.ldRegs x) 0xF065#16 0xF0FF#16 (0xF065#16 ||| (x.setWidth 16 <<< 8)) ∧
    (indexBase s + x.toNat ≤ 0xFFF → Completes (exec (.ldRegs x) s) fun t =>
      (∀ k : Nibble, k.toNat ≤ x.toNat → some (t.reg k) = s.readByte (indexBase s + k.toNat)) ∧
      (∀ k : Nibble, x.toNat < k.toNat → t.reg k = s.reg k) ∧
      t.i.toNat = (indexBase s + x.toNat + 1) % 65536 ∧ t.pc.toNat = (s.pc.toNat + 2) % 65536 ∧ SameBytes s t ∧
      t = { s with v := t.v, i := t.i, pc := t.pc }) ∧
    (0xFFF < indexBase s + x.toNat →
      exec (.ldRegs x) s = .next (fatalState s (.memoryFault .read (max (indexBase s) 0x1000))))

/-- R156: FX55 then, with I set back and the stored bytes left alone, FX65 gives V0 to VX back, and I after either is the
original I + X + 1. The spec marks the law as derived from R154 and R155. -/
def Obligations.StoreThenLoadRoundTrips : Prop :=
  ∀ (s t u : State) (x : Nibble), s.memWf = true → s.halted = false →
    exec (.stRegs x) s = .next t → t.halted = false → u.i = s.i →
    (∀ k, k ≤ x.toNat → u.readByte (indexBase s + k) = t.readByte (indexBase s + k)) →
    t.i.toNat = (indexBase s + x.toNat + 1) % 65536 ∧
    Completes (exec (.ldRegs x) u) fun w =>
      (∀ k : Nibble, k.toNat ≤ x.toNat → w.reg k = s.reg k) ∧ w.i = t.i

/-- R52: a word FX55 has just stored is the word fetched when PC comes to it. The spec marks this as derived.
That equal `mem` and `font` are equal memory, and that the list is canonical, is the model's form (log entries 1 and 6). -/
def Obligations.StoredWordIsFetched : Prop :=
  ∀ (s t u : State) (x k : Nibble), s.memWf = true → s.halted = false →
    exec (.stRegs x) s = .next t → t.halted = false → k.toNat < x.toNat →
    u.mem = t.mem → u.font = t.font → u.pc.toNat = indexBase s + k.toNat →
    ∃ w, fetch u = .ok w ∧ w.toNat = (s.reg k).toNat * 256 + (s.reg (k + 1)).toNat

/-- R48: only FX33 and FX55 store, three bytes from I and X + 1 bytes from I; every other byte of memory reads as before, and
a halting instruction stores nothing. Rests on D5. -/
def Obligations.StoresTouchOnlyTheirBytes : Prop :=
  ∀ (i : Instr) (s t : State), s.memWf = true → s.halted = false → exec i s = .next t →
    (∀ a, storesAt i s a = false → t.readByte a = s.readByte a) ∧
    (t.halted = true → SameBytes s t)

/-- Two canonical memories over one font (log entry 1) that read alike everywhere are one list: the model's choice of form
(log entry 6) makes equal memories equal data. -/
def Obligations.CanonicalMemoriesThatReadAlikeAreEqual : Prop :=
  ∀ s t : State, s.memWf = true → t.memWf = true → s.font = t.font → SameBytes s t → s.mem = t.mem

/-! ## Display -/

/-- R170: 00E0 leaves every pixel the host can read 0 and DIRTY true, and changes nothing else. -/
def Obligations.ClearScreenZeroesEveryPixel : Prop :=
  EncodedAs .cls 0x00E0#16 0xFFFF#16 0x00E0#16 ∧
  ∀ s : State, Completes (exec .cls s) fun t =>
    (∀ index, portFramebuffer t index = false) ∧ portIsDirty t = true ∧
    t.pc.toNat = (s.pc.toNat + 2) % 65536 ∧ SameBytes s t ∧
    t = { s with fb := t.fb, dirty := t.dirty, pc := t.pc }

/-- R171, R172: DXYN flips exactly the pixels its set sprite pixels land on, wrapping at both edges, sets VF to 1 exactly when
one of them was set, and sets DIRTY; coordinates are the old V[X] and V[Y]. Pixels are those the host reads: pixel (x, y) is
cell y*64 + x of its port (R19, R172, R214). Rests on D5, D6, D10, D18, D19, D20 and G6. -/
def Obligations.DrawFlipsTheCoveredPixels : Prop :=
  ∀ (s : State) (x y n : Nibble), spriteInMemory s n →
    Completes (exec (.drw x y n) s) fun t =>
      (∀ px py, spriteCovers s x y n px.val py.val → hostPixel t px py = !hostPixel s px py) ∧
      (∀ px py, ¬ spriteCovers s x y n px.val py.val → hostPixel t px py = hostPixel s px py) ∧
      (t.reg 15 = 1 ∨ t.reg 15 = 0) ∧
      (t.reg 15 = 1 ↔ ∃ px py, spriteCovers s x y n px.val py.val ∧ hostPixel s px py = true) ∧
      SameRegsBut [15] s t ∧ t.dirty = true ∧ t.pc.toNat = (s.pc.toNat + 2) % 65536 ∧ SameBytes s t ∧
      t = { s with v := t.v, fb := t.fb, dirty := t.dirty, pc := t.pc }

/-- R171: a draw of rows not all in MEM is the fatal MemoryFault of kind read at the first byte outside, and draws nothing.
Rests on D4 to D6, the record on D23. -/
def Obligations.DrawOutsideMemoryFaults : Prop :=
  ∀ (s : State) (x y n : Nibble), ¬ spriteInMemory s n →
    exec (.drw x y n) s = .next (fatalState s (.memoryFault .read (max (indexBase s) 0x1000)))

/-- R173: the same draw twice restores the framebuffer; VF after the second is 1 exactly when some flipped pixel was 0
before the first, as the host reads it (R214). The spec marks the law as derived from R171. -/
def Obligations.DrawingTwiceRestoresTheFramebuffer : Prop :=
  ∀ (s t u : State) (x y n : Nibble), spriteInMemory s n → exec (.drw x y n) s = .next t →
    u.fb = t.fb → u.i = s.i → u.reg x = s.reg x → u.reg y = s.reg y →
    (∀ r, r < n.toNat → u.readByte (indexBase s + r) = s.readByte (indexBase s + r)) →
    Completes (exec (.drw x y n) u) fun w =>
      w.fb = s.fb ∧
      (w.reg 15 = 1 ↔ ∃ px py, spriteCovers s x y n px.val py.val ∧ hostPixel s px py = false)

/-- R174, R213: 00E0 and every completed DXYN set DIRTY whatever they draw, a faulting DXYN leaves it, RESET sets it, and
CLEAR_DIRTY alone clears it, changing nothing else. -/
def Obligations.DirtyIsSetByDrawsAndClearedOnlyByTheHost : Prop :=
  (∀ s t : State, exec .cls s = .next t → t.dirty = true) ∧
  (∀ (s t : State) (x y n : Nibble), s.halted = false → exec (.drw x y n) s = .next t →
    t.dirty = if t.halted then s.dirty else true) ∧
  (∀ s : State, Completes (perform .reset s) fun t => t.dirty = true) ∧
  (∀ s : State, perform .clearDirty s = .next { s with dirty := false }) ∧
  (∀ (c : Command) (s t : State), perform c s = .next t → s.dirty = true → t.dirty = false → c = .clearDirty)

/-! ## Keypad and timers -/

/-- R190, R191, R236: with V[X] above 15 the key skips are the fatal KeyIndexFault. Rests on D4, D16 and D23. -/
def Obligations.KeySkipsFaultAboveFifteen : Prop :=
  ∀ (s : State) (x : Nibble), 15 < (s.reg x).toNat →
    exec (.skp x) s = .next (fatalState s (.keyIndexFault (s.reg x))) ∧
    exec (.sknp x) s = .next (fatalState s (.keyIndexFault (s.reg x)))

/-- R192: with no key down FX0A changes nothing, PC included; with some key down V[X] becomes the number of one that is down
and PC advances. Which one is a free choice (D17; log entries 3 and 4). -/
def Obligations.AwaitKeyWaitsOrStoresAPressedKey : Prop :=
  ∀ (s : State) (x : Nibble),
    ((∀ k, s.keyDown k = false) → exec (.ldVxK x) s = .next s) ∧
    ((∃ k, s.keyDown k = true) → Completes (exec (.ldVxK x) s) fun t =>
      (∃ k, s.keyDown k = true ∧ (t.reg x).toNat = k.toNat) ∧ SameRegsBut [x] s t ∧
      t.pc.toNat = (s.pc.toNat + 2) % 65536 ∧ SameBytes s t ∧
      t = { s with v := t.v, pc := t.pc, draws := t.draws })

/-- R193 to R195: FX07 reads DT, FX15 writes DT, FX18 writes ST; nothing else changes, BEEP too. Which timer each moves is
general knowledge (G3, D36). -/
def Obligations.TimerMovesTouchOneTimer : Prop :=
  ∀ (s : State) (x : Nibble),
    Completes (exec (.ldVxDt x) s) (WritesRegister s x s.dt) ∧
    (Completes (exec (.ldDtVx x) s) fun t =>
      t.dt = s.reg x ∧ t.pc.toNat = (s.pc.toNat + 2) % 65536 ∧ SameBytes s t ∧
      t = { s with dt := t.dt, pc := t.pc }) ∧
    (Completes (exec (.ldStVx x) s) fun t =>
      t.st = s.reg x ∧ t.pc.toNat = (s.pc.toNat + 2) % 65536 ∧ SameBytes s t ∧
      t = { s with st := t.st, pc := t.pc })

/-- R10's column `written by`, for the execution of an instruction: V, I, STACK, SP, DT, ST, FB with DIRTY and MEM each change
only by the instructions named for them (a byte of MEM only where the instruction stores); KEY and BEEP never; HALTED and
LAST_ERROR only by a fatal fault, which changes nothing else. PC has every instruction as its writer. An unknown word is no
instruction: `UnknownWordIsSkippedAndRecorded` is what it writes. Rests on D4, D5, D10, D12 and D23. The model's own two fields
have their writers too: the font none (log entry 1), the count of draws CXNN and FX0A (log entry 4); that bytes are compared
where the list is canonical is the model's form (log entry 6). -/
def Obligations.EachElementHasItsWriters : Prop :=
  ∀ (i : Instr) (s t : State), exec i s = .next t →
    (∀ k, mayWriteReg i k = false → t.reg k = s.reg k) ∧
    (mayWriteI i = false → t.i = s.i) ∧
    (mayWriteStack i = false → t.stack = s.stack) ∧ (mayWriteSp i = false → t.sp = s.sp) ∧
    ((∀ x, i ≠ .ldDtVx x) → t.dt = s.dt) ∧ ((∀ x, i ≠ .ldStVx x) → t.st = s.st) ∧
    (mayWriteDisplay i = false → t.fb = s.fb ∧ t.dirty = s.dirty) ∧
    (mayStore i = false → SameBytes s t) ∧
    (s.memWf = true → ∀ a, storesAt i s a = false → t.readByte a = s.readByte a) ∧
    t.key = s.key ∧ t.beep = s.beep ∧ t.font = s.font ∧
    ((∀ x nn, i ≠ .rnd x nn) → (∀ x, i ≠ .ldVxK x) → t.draws = s.draws) ∧
    ((∃ cause, cause.fatal = true ∧ t = fatalState s cause) ∨ (t.halted = s.halted ∧ t.lastError = s.lastError))

/-! ## The host's commands -/

/-- R242, R243: TICK counts both timers down by 1, floored at 0, latches and returns whether ST was exactly 1 on entry, and
acts while HALTED too; nothing else changes. The moment of the test rests on D25, acting while HALTED on D27. -/
def Obligations.TickCountsDownAndBeepsOnOne : Prop :=
  ∀ s : State,
    (Completes (perform .tick s) fun t =>
      t.dt.toNat = s.dt.toNat - 1 ∧ t.st.toNat = s.st.toNat - 1 ∧ (portShouldBeep t = true ↔ s.st.toNat = 1) ∧
      t = { s with dt := t.dt, st := t.st, beep := t.beep } ∧ reply .tick s = .beep t.beep)

/-- R260, R262: RESET leaves every element but KEY at the value R10 gives, whatever the state before, and is idempotent. The
latches rest on D34, KEY on D24; that the font and the count of draws stay is the model's (log entries 1 and 4). -/
def Obligations.ResetLeavesTheStatedValues : Prop :=
  ∀ s : State, Completes (perform .reset s) fun t =>
    (∀ a (h : a < 80), t.readByte a = some (s.font[a])) ∧ (∀ a, 80 ≤ a → a < 4096 → t.readByte a = some 0) ∧
    (∀ k, t.reg k = 0) ∧ (∀ k : Fin 16, t.stack[k] = 0) ∧ (∀ index, portFramebuffer t index = false) ∧
    t.dt = 0 ∧ t.st = 0 ∧ t.pc = 0x200 ∧ t.i = 0 ∧ t.sp = 0 ∧ t.dirty = true ∧ t.halted = false ∧
    t.lastError = none ∧ t.beep = false ∧ t.key = s.key ∧ perform .reset t = .next t

/-- R261: at power-on the state is the RESET state with every key up, so RESET leaves it as it is. Rests on D24. That RESET keeps
the font and the count of draws, so that they stand as premises here, is the model's: the font is the parameter FONT, with a
PRESUMED default (log entry 1), the count is the model's own field (log entry 4). -/
def Obligations.PowerOnIsAResetWithKeysUp : Prop :=
  (∀ k, State.reset.keyDown k = false) ∧
  ∀ s : State, (∀ k, s.keyDown k = false) → s.font = State.reset.font → s.draws = State.reset.draws →
    perform .reset s = .next State.reset

/-- R211: a LOAD of at most 3584 bytes places them from 0x200 on and changes nothing else: the bytes beyond keep their
values. That it may be issued at any time rests on D26. -/
def Obligations.LoadPlacesTheProgram : Prop :=
  ∀ (s : State) (bytes : List Byte), s.memWf = true → bytes.length ≤ 3584 →
    reply (.load bytes) s = .loaded ∧
    Completes (perform (.load bytes) s) fun t =>
      (∀ k, k < bytes.length → t.readByte (0x200 + k) = bytes[k]?) ∧
      (∀ a, a < 0x200 ∨ 0x200 + bytes.length ≤ a → t.readByte a = s.readByte a) ∧
      t = { s with mem := t.mem }

/-- R231: a LOAD of more than 3584 bytes is RomTooLarge: only LAST_ERROR is written, HALTED is not set, and later commands
act on the unchanged state (R211). The fields `pc` and `info` of the record are R230's by the spec's decision D23 (log entries 9
and 14). -/
def Obligations.TooLargeProgramLeavesTheState : Prop :=
  ∀ (s : State) (bytes : List Byte), 3584 < bytes.length →
    reply (.load bytes) s = .romTooLarge ∧
    Completes (perform (.load bytes) s) fun t =>
      t.lastError = some { cause := .romTooLarge bytes.length, pc := s.pc } ∧ SameBytes s t ∧
      t = { s with lastError := t.lastError } ∧
      (∀ w i, s.halted = false → fetch s = .ok w → decodeWord w = .ok i → step t = exec i t)

/-- R20, R212: a key changes only by SET_KEY of that key, and SET_KEY changes nothing else. The 4-bit index rests on D35, that
RESET leaves the keys on D24. -/
def Obligations.KeysChangeOnlyBySetKey : Prop :=
  (∀ (c : Command) (s t : State) (k : Nibble), perform c s = .next t → (∀ p, c ≠ .setKey k p) →
    t.keyDown k = s.keyDown k) ∧
  (∀ (s : State) (k : Nibble) (p : Bool), Completes (perform (.setKey k p) s) fun t =>
    t.keyDown k = p ∧ t = { s with key := t.key })

/-- R22, R23, R239: RESET clears HALTED and LAST_ERROR and nothing else does; while halted, STEP changes nothing and the other
commands still act. Rests on D4, D23, D27 and D34. -/
def Obligations.OnlyResetClearsHaltAndError : Prop :=
  (∀ (c : Command) (s t : State), perform c s = .next t → c ≠ .reset →
    (s.halted = true → t.halted = true) ∧ (s.lastError ≠ none → t.lastError ≠ none)) ∧
  (∀ s : State, Completes (perform .reset s) fun t => t.halted = false ∧ t.lastError = none)

/-- R87: the outcome STEP returns says what the STEP did. The five labels are the spec's own (D32). -/
def Obligations.StepReplyTellsWhatHappened : Prop :=
  ∀ s t : State, step s = .next t →
    (stepReply s = .haltedNoop ↔ s.halted = true) ∧
    (stepReply s = .fatal ↔ s.halted = false ∧ t.halted = true) ∧
    (stepReply s = .waiting ↔ s.halted = false ∧ AtKeyWait s) ∧
    (stepReply s = .unknown ↔ s.halted = false ∧ ∃ w, fetch s = .ok w ∧ Word.recognised w = false) ∧
    (stepReply s = .haltedNoop ∨ stepReply s = .waiting → t = s)

/-! ## Invariants -/

/-- The invariant holds at power-on and after RESET (R10, R41, R230). Its canonical memory is the model's form (log entry 6);
the agreement of the latches rests on D4 and D23, RESET's clearing them on D34. -/
def Obligations.ResetMeetsTheInvariant : Prop :=
  Inv State.reset ∧ ∀ s : State, Completes (perform .reset s) Inv

/-- Every STEP, from every state that meets it, keeps the invariant: the memory stays canonical (log entry 6), no cell below
0x200 is touched (R41, D7), and HALTED and LAST_ERROR agree (R22, R23, D4, D23). -/
def Obligations.StepKeepsTheInvariant : Prop :=
  ∀ s t : State, Inv s → step s = .next t → Inv t

/-- Every schedule of commands keeps the invariant (R216, D2; log entry 5): the memory stays canonical, which is the model's form
(log entry 6), no cell below 0x200 is touched (R41, D7), and HALTED and LAST_ERROR agree (R22, R23, D4, D23). -/
def Obligations.EverySchedulePreservesTheInvariant : Prop :=
  ∀ (cs : List Command) (s : State), Inv s → ∃ t, runCommands cs s = .next t ∧ Inv t

/-- R41: no command but RESET changes a byte below 0x200, whatever the schedule. Rests on D7; the premise that the list is
canonical is the model's form (log entry 6). -/
def Obligations.LowMemoryIsReadOnly : Prop :=
  ∀ (cs : List Command) (s t : State) (a : Nat), s.memWf = true → Command.reset ∉ cs → runCommands cs s = .next t →
    a < 0x200 → t.readByte a = s.readByte a

/-- R15, R16: one STEP moves SP by at most one and changes at most the entry SP names; where SP does not rise it changes no
entry, so a pop leaves the entry it takes. -/
def Obligations.StepMovesTheStackByOneEntry : Prop :=
  ∀ s t : State, step s = .next t →
    t.sp.val ≤ s.sp.val + 1 ∧ s.sp.val ≤ t.sp.val + 1 ∧
    (∀ k : Fin 16, k.val ≠ s.sp.val → t.stack[k] = s.stack[k]) ∧
    (t.sp.val ≤ s.sp.val → t.stack = s.stack)

/-- R29, R215: between STEPs the host's own moves touch no register, no stack entry and no PC: LOAD writes program memory or
LAST_ERROR, TICK the timers and BEEP, SET_KEY a key, CLEAR_DIRTY the flag. The last two clauses are about the model's own fields
and are its choice: no command writes the font (log entry 1), and only CXNN and FX0A count a draw (log entry 4). -/
def Obligations.HostMovesTouchNoRegister : Prop :=
  ∀ (c : Command) (s t : State), c ≠ .step → c ≠ .reset → perform c s = .next t →
    (∀ k, t.reg k = s.reg k) ∧ t.i = s.i ∧ t.pc = s.pc ∧ t.stack = s.stack ∧ t.sp = s.sp ∧ t.fb = s.fb ∧
    t.halted = s.halted ∧ t.font = s.font ∧ t.draws = s.draws
end

