-- ==== Sys2Proof/Laws/Encoding.lean ====
section
/-! SUPPORT. The fields of a word put together by R74's formats: each field is the pattern's own, with the operand added where
the format puts it. -/

namespace Sys2Proof

theorem fieldOp_formatNNN (p : Word) (nnn : BitVec 12) : fieldOp (formatNNN p nnn) = fieldOp p := by
  apply BitVec.eq_of_getLsbD_eq
  intro k hk
  simp [fieldOp, formatNNN, hk]

theorem fieldNNN_formatNNN (p : Word) (nnn : BitVec 12) : fieldNNN (formatNNN p nnn) = fieldNNN p ||| nnn := by
  apply BitVec.eq_of_getLsbD_eq
  intro k hk
  simp [fieldNNN, formatNNN, hk, show k < 16 by omega]

theorem fieldOp_formatXNN (p : Word) (x : Nibble) (nn : Byte) : fieldOp (formatXNN p x nn) = fieldOp p := by
  apply BitVec.eq_of_getLsbD_eq
  intro k hk
  simp [fieldOp, formatXNN, hk, BitVec.getLsbD_of_ge x (12 + k - 8) (by omega), BitVec.getLsbD_of_ge nn (12 + k) (by omega)]

theorem fieldX_formatXNN (p : Word) (x : Nibble) (nn : Byte) : fieldX (formatXNN p x nn) = fieldX p ||| x := by
  apply BitVec.eq_of_getLsbD_eq
  intro k hk
  simp [fieldX, formatXNN, hk, show 8 + k < 16 by omega]

theorem fieldNN_formatXNN (p : Word) (x : Nibble) (nn : Byte) : fieldNN (formatXNN p x nn) = fieldNN p ||| nn := by
  apply BitVec.eq_of_getLsbD_eq
  intro k hk
  simp [fieldNN, formatXNN, hk, show k < 16 by omega]

theorem fieldOp_formatXFN (p : Word) (x : Nibble) : fieldOp (formatXFN p x) = fieldOp p := by
  apply BitVec.eq_of_getLsbD_eq
  intro k hk
  simp [fieldOp, formatXFN, hk, BitVec.getLsbD_of_ge x (12 + k - 8) (by omega)]

theorem fieldX_formatXFN (p : Word) (x : Nibble) : fieldX (formatXFN p x) = fieldX p ||| x := by
  apply BitVec.eq_of_getLsbD_eq
  intro k hk
  simp [fieldX, formatXFN, hk, show 8 + k < 16 by omega]

theorem fieldNN_formatXFN (p : Word) (x : Nibble) : fieldNN (formatXFN p x) = fieldNN p := by
  apply BitVec.eq_of_getLsbD_eq
  intro k hk
  simp [fieldNN, formatXFN, hk]

theorem fieldOp_formatXYN (p : Word) (x y n : Nibble) : fieldOp (formatXYN p x y n) = fieldOp p := by
  apply BitVec.eq_of_getLsbD_eq
  intro k hk
  simp [fieldOp, formatXYN, hk, BitVec.getLsbD_of_ge x (12 + k - 8) (by omega), BitVec.getLsbD_of_ge y (12 + k - 4) (by omega), BitVec.getLsbD_of_ge n (12 + k) (by omega)]

theorem fieldX_formatXYN (p : Word) (x y n : Nibble) : fieldX (formatXYN p x y n) = fieldX p ||| x := by
  apply BitVec.eq_of_getLsbD_eq
  intro k hk
  simp [fieldX, formatXYN, hk, show 8 + k < 16 by omega, BitVec.getLsbD_of_ge y (8 + k - 4) (by omega), BitVec.getLsbD_of_ge n (8 + k) (by omega)]

theorem fieldY_formatXYN (p : Word) (x y n : Nibble) : fieldY (formatXYN p x y n) = fieldY p ||| y := by
  apply BitVec.eq_of_getLsbD_eq
  intro k hk
  simp [fieldY, formatXYN, hk, show 4 + k < 16 by omega, show 4 + k < 8 by omega]

theorem fieldN_formatXYN (p : Word) (x y n : Nibble) : fieldN (formatXYN p x y n) = fieldN p ||| n := by
  apply BitVec.eq_of_getLsbD_eq
  intro k hk
  simp [fieldN, formatXYN, hk, show k < 16 by omega, show k < 8 by omega]

end Sys2Proof
end

