-- ==== Sys2Proof/Laws/State.lean ====
section
/-! SUPPORT. One lemma per field per update of the state, so that no proof unfolds a record update. `reg`, `keyDown` and
`readByte` are followed through every update that leaves what they read alone. -/

namespace Sys2Proof.Machine

/-! #### setReg -/

@[simp] theorem setReg_mem (s : State) (x : Nibble) (b : Byte) : (s.setReg x b).mem = s.mem := rfl
@[simp] theorem setReg_font (s : State) (x : Nibble) (b : Byte) : (s.setReg x b).font = s.font := rfl
@[simp] theorem setReg_v (s : State) (x : Nibble) (b : Byte) : (s.setReg x b).v = s.v.set x.toNat b := rfl
@[simp] theorem setReg_i (s : State) (x : Nibble) (b : Byte) : (s.setReg x b).i = s.i := rfl
@[simp] theorem setReg_pc (s : State) (x : Nibble) (b : Byte) : (s.setReg x b).pc = s.pc := rfl
@[simp] theorem setReg_stack (s : State) (x : Nibble) (b : Byte) : (s.setReg x b).stack = s.stack := rfl
@[simp] theorem setReg_sp (s : State) (x : Nibble) (b : Byte) : (s.setReg x b).sp = s.sp := rfl
@[simp] theorem setReg_dt (s : State) (x : Nibble) (b : Byte) : (s.setReg x b).dt = s.dt := rfl
@[simp] theorem setReg_st (s : State) (x : Nibble) (b : Byte) : (s.setReg x b).st = s.st := rfl
@[simp] theorem setReg_fb (s : State) (x : Nibble) (b : Byte) : (s.setReg x b).fb = s.fb := rfl
@[simp] theorem setReg_key (s : State) (x : Nibble) (b : Byte) : (s.setReg x b).key = s.key := rfl
@[simp] theorem setReg_dirty (s : State) (x : Nibble) (b : Byte) : (s.setReg x b).dirty = s.dirty := rfl
@[simp] theorem setReg_halted (s : State) (x : Nibble) (b : Byte) : (s.setReg x b).halted = s.halted := rfl
@[simp] theorem setReg_lastError (s : State) (x : Nibble) (b : Byte) : (s.setReg x b).lastError = s.lastError := rfl
@[simp] theorem setReg_beep (s : State) (x : Nibble) (b : Byte) : (s.setReg x b).beep = s.beep := rfl
@[simp] theorem setReg_draws (s : State) (x : Nibble) (b : Byte) : (s.setReg x b).draws = s.draws := rfl
@[simp] theorem setReg_keyDown (s : State) (x : Nibble) (b : Byte) (k : Nibble) : (s.setReg x b).keyDown k = s.keyDown k := rfl
@[simp] theorem setReg_readByte (s : State) (x : Nibble) (b : Byte) (n : Nat) : (s.setReg x b).readByte n = s.readByte n := rfl

/-! #### setFlag -/

@[simp] theorem setFlag_mem (s : State) (b : Byte) : (s.setFlag b).mem = s.mem := rfl
@[simp] theorem setFlag_font (s : State) (b : Byte) : (s.setFlag b).font = s.font := rfl
@[simp] theorem setFlag_v (s : State) (b : Byte) : (s.setFlag b).v = s.v.set vf.toNat b := rfl
@[simp] theorem setFlag_i (s : State) (b : Byte) : (s.setFlag b).i = s.i := rfl
@[simp] theorem setFlag_pc (s : State) (b : Byte) : (s.setFlag b).pc = s.pc := rfl
@[simp] theorem setFlag_stack (s : State) (b : Byte) : (s.setFlag b).stack = s.stack := rfl
@[simp] theorem setFlag_sp (s : State) (b : Byte) : (s.setFlag b).sp = s.sp := rfl
@[simp] theorem setFlag_dt (s : State) (b : Byte) : (s.setFlag b).dt = s.dt := rfl
@[simp] theorem setFlag_st (s : State) (b : Byte) : (s.setFlag b).st = s.st := rfl
@[simp] theorem setFlag_fb (s : State) (b : Byte) : (s.setFlag b).fb = s.fb := rfl
@[simp] theorem setFlag_key (s : State) (b : Byte) : (s.setFlag b).key = s.key := rfl
@[simp] theorem setFlag_dirty (s : State) (b : Byte) : (s.setFlag b).dirty = s.dirty := rfl
@[simp] theorem setFlag_halted (s : State) (b : Byte) : (s.setFlag b).halted = s.halted := rfl
@[simp] theorem setFlag_lastError (s : State) (b : Byte) : (s.setFlag b).lastError = s.lastError := rfl
@[simp] theorem setFlag_beep (s : State) (b : Byte) : (s.setFlag b).beep = s.beep := rfl
@[simp] theorem setFlag_draws (s : State) (b : Byte) : (s.setFlag b).draws = s.draws := rfl
@[simp] theorem setFlag_keyDown (s : State) (b : Byte) (k : Nibble) : (s.setFlag b).keyDown k = s.keyDown k := rfl
@[simp] theorem setFlag_readByte (s : State) (b : Byte) (n : Nat) : (s.setFlag b).readByte n = s.readByte n := rfl

/-! #### setI -/

@[simp] theorem setI_mem (s : State) (w : Word) : (s.setI w).mem = s.mem := rfl
@[simp] theorem setI_font (s : State) (w : Word) : (s.setI w).font = s.font := rfl
@[simp] theorem setI_v (s : State) (w : Word) : (s.setI w).v = s.v := rfl
@[simp] theorem setI_i (s : State) (w : Word) : (s.setI w).i = w := rfl
@[simp] theorem setI_pc (s : State) (w : Word) : (s.setI w).pc = s.pc := rfl
@[simp] theorem setI_stack (s : State) (w : Word) : (s.setI w).stack = s.stack := rfl
@[simp] theorem setI_sp (s : State) (w : Word) : (s.setI w).sp = s.sp := rfl
@[simp] theorem setI_dt (s : State) (w : Word) : (s.setI w).dt = s.dt := rfl
@[simp] theorem setI_st (s : State) (w : Word) : (s.setI w).st = s.st := rfl
@[simp] theorem setI_fb (s : State) (w : Word) : (s.setI w).fb = s.fb := rfl
@[simp] theorem setI_key (s : State) (w : Word) : (s.setI w).key = s.key := rfl
@[simp] theorem setI_dirty (s : State) (w : Word) : (s.setI w).dirty = s.dirty := rfl
@[simp] theorem setI_halted (s : State) (w : Word) : (s.setI w).halted = s.halted := rfl
@[simp] theorem setI_lastError (s : State) (w : Word) : (s.setI w).lastError = s.lastError := rfl
@[simp] theorem setI_beep (s : State) (w : Word) : (s.setI w).beep = s.beep := rfl
@[simp] theorem setI_draws (s : State) (w : Word) : (s.setI w).draws = s.draws := rfl
@[simp] theorem setI_reg (s : State) (w : Word) (k : Nibble) : (s.setI w).reg k = s.reg k := rfl
@[simp] theorem setI_keyDown (s : State) (w : Word) (k : Nibble) : (s.setI w).keyDown k = s.keyDown k := rfl
@[simp] theorem setI_readByte (s : State) (w : Word) (n : Nat) : (s.setI w).readByte n = s.readByte n := rfl

/-! #### setPc -/

@[simp] theorem setPc_mem (s : State) (w : Word) : (s.setPc w).mem = s.mem := rfl
@[simp] theorem setPc_font (s : State) (w : Word) : (s.setPc w).font = s.font := rfl
@[simp] theorem setPc_v (s : State) (w : Word) : (s.setPc w).v = s.v := rfl
@[simp] theorem setPc_i (s : State) (w : Word) : (s.setPc w).i = s.i := rfl
@[simp] theorem setPc_pc (s : State) (w : Word) : (s.setPc w).pc = w := rfl
@[simp] theorem setPc_stack (s : State) (w : Word) : (s.setPc w).stack = s.stack := rfl
@[simp] theorem setPc_sp (s : State) (w : Word) : (s.setPc w).sp = s.sp := rfl
@[simp] theorem setPc_dt (s : State) (w : Word) : (s.setPc w).dt = s.dt := rfl
@[simp] theorem setPc_st (s : State) (w : Word) : (s.setPc w).st = s.st := rfl
@[simp] theorem setPc_fb (s : State) (w : Word) : (s.setPc w).fb = s.fb := rfl
@[simp] theorem setPc_key (s : State) (w : Word) : (s.setPc w).key = s.key := rfl
@[simp] theorem setPc_dirty (s : State) (w : Word) : (s.setPc w).dirty = s.dirty := rfl
@[simp] theorem setPc_halted (s : State) (w : Word) : (s.setPc w).halted = s.halted := rfl
@[simp] theorem setPc_lastError (s : State) (w : Word) : (s.setPc w).lastError = s.lastError := rfl
@[simp] theorem setPc_beep (s : State) (w : Word) : (s.setPc w).beep = s.beep := rfl
@[simp] theorem setPc_draws (s : State) (w : Word) : (s.setPc w).draws = s.draws := rfl
@[simp] theorem setPc_reg (s : State) (w : Word) (k : Nibble) : (s.setPc w).reg k = s.reg k := rfl
@[simp] theorem setPc_keyDown (s : State) (w : Word) (k : Nibble) : (s.setPc w).keyDown k = s.keyDown k := rfl
@[simp] theorem setPc_readByte (s : State) (w : Word) (n : Nat) : (s.setPc w).readByte n = s.readByte n := rfl

/-! #### advance -/

@[simp] theorem advance_mem (s : State) : (s.advance).mem = s.mem := rfl
@[simp] theorem advance_font (s : State) : (s.advance).font = s.font := rfl
@[simp] theorem advance_v (s : State) : (s.advance).v = s.v := rfl
@[simp] theorem advance_i (s : State) : (s.advance).i = s.i := rfl
@[simp] theorem advance_pc (s : State) : (s.advance).pc = s.pc + 2 := rfl
@[simp] theorem advance_stack (s : State) : (s.advance).stack = s.stack := rfl
@[simp] theorem advance_sp (s : State) : (s.advance).sp = s.sp := rfl
@[simp] theorem advance_dt (s : State) : (s.advance).dt = s.dt := rfl
@[simp] theorem advance_st (s : State) : (s.advance).st = s.st := rfl
@[simp] theorem advance_fb (s : State) : (s.advance).fb = s.fb := rfl
@[simp] theorem advance_key (s : State) : (s.advance).key = s.key := rfl
@[simp] theorem advance_dirty (s : State) : (s.advance).dirty = s.dirty := rfl
@[simp] theorem advance_halted (s : State) : (s.advance).halted = s.halted := rfl
@[simp] theorem advance_lastError (s : State) : (s.advance).lastError = s.lastError := rfl
@[simp] theorem advance_beep (s : State) : (s.advance).beep = s.beep := rfl
@[simp] theorem advance_draws (s : State) : (s.advance).draws = s.draws := rfl
@[simp] theorem advance_reg (s : State) (k : Nibble) : (s.advance).reg k = s.reg k := rfl
@[simp] theorem advance_keyDown (s : State) (k : Nibble) : (s.advance).keyDown k = s.keyDown k := rfl
@[simp] theorem advance_readByte (s : State) (n : Nat) : (s.advance).readByte n = s.readByte n := rfl

/-! #### skipIf -/

@[simp] theorem skipIf_mem (s : State) (c : Bool) : (s.skipIf c).mem = s.mem := rfl
@[simp] theorem skipIf_font (s : State) (c : Bool) : (s.skipIf c).font = s.font := rfl
@[simp] theorem skipIf_v (s : State) (c : Bool) : (s.skipIf c).v = s.v := rfl
@[simp] theorem skipIf_i (s : State) (c : Bool) : (s.skipIf c).i = s.i := rfl
@[simp] theorem skipIf_pc (s : State) (c : Bool) : (s.skipIf c).pc = s.pc + if c then 4 else 2 := rfl
@[simp] theorem skipIf_stack (s : State) (c : Bool) : (s.skipIf c).stack = s.stack := rfl
@[simp] theorem skipIf_sp (s : State) (c : Bool) : (s.skipIf c).sp = s.sp := rfl
@[simp] theorem skipIf_dt (s : State) (c : Bool) : (s.skipIf c).dt = s.dt := rfl
@[simp] theorem skipIf_st (s : State) (c : Bool) : (s.skipIf c).st = s.st := rfl
@[simp] theorem skipIf_fb (s : State) (c : Bool) : (s.skipIf c).fb = s.fb := rfl
@[simp] theorem skipIf_key (s : State) (c : Bool) : (s.skipIf c).key = s.key := rfl
@[simp] theorem skipIf_dirty (s : State) (c : Bool) : (s.skipIf c).dirty = s.dirty := rfl
@[simp] theorem skipIf_halted (s : State) (c : Bool) : (s.skipIf c).halted = s.halted := rfl
@[simp] theorem skipIf_lastError (s : State) (c : Bool) : (s.skipIf c).lastError = s.lastError := rfl
@[simp] theorem skipIf_beep (s : State) (c : Bool) : (s.skipIf c).beep = s.beep := rfl
@[simp] theorem skipIf_draws (s : State) (c : Bool) : (s.skipIf c).draws = s.draws := rfl
@[simp] theorem skipIf_reg (s : State) (c : Bool) (k : Nibble) : (s.skipIf c).reg k = s.reg k := rfl
@[simp] theorem skipIf_keyDown (s : State) (c : Bool) (k : Nibble) : (s.skipIf c).keyDown k = s.keyDown k := rfl
@[simp] theorem skipIf_readByte (s : State) (c : Bool) (n : Nat) : (s.skipIf c).readByte n = s.readByte n := rfl

/-! #### setDt -/

@[simp] theorem setDt_mem (s : State) (b : Byte) : (s.setDt b).mem = s.mem := rfl
@[simp] theorem setDt_font (s : State) (b : Byte) : (s.setDt b).font = s.font := rfl
@[simp] theorem setDt_v (s : State) (b : Byte) : (s.setDt b).v = s.v := rfl
@[simp] theorem setDt_i (s : State) (b : Byte) : (s.setDt b).i = s.i := rfl
@[simp] theorem setDt_pc (s : State) (b : Byte) : (s.setDt b).pc = s.pc := rfl
@[simp] theorem setDt_stack (s : State) (b : Byte) : (s.setDt b).stack = s.stack := rfl
@[simp] theorem setDt_sp (s : State) (b : Byte) : (s.setDt b).sp = s.sp := rfl
@[simp] theorem setDt_dt (s : State) (b : Byte) : (s.setDt b).dt = b := rfl
@[simp] theorem setDt_st (s : State) (b : Byte) : (s.setDt b).st = s.st := rfl
@[simp] theorem setDt_fb (s : State) (b : Byte) : (s.setDt b).fb = s.fb := rfl
@[simp] theorem setDt_key (s : State) (b : Byte) : (s.setDt b).key = s.key := rfl
@[simp] theorem setDt_dirty (s : State) (b : Byte) : (s.setDt b).dirty = s.dirty := rfl
@[simp] theorem setDt_halted (s : State) (b : Byte) : (s.setDt b).halted = s.halted := rfl
@[simp] theorem setDt_lastError (s : State) (b : Byte) : (s.setDt b).lastError = s.lastError := rfl
@[simp] theorem setDt_beep (s : State) (b : Byte) : (s.setDt b).beep = s.beep := rfl
@[simp] theorem setDt_draws (s : State) (b : Byte) : (s.setDt b).draws = s.draws := rfl
@[simp] theorem setDt_reg (s : State) (b : Byte) (k : Nibble) : (s.setDt b).reg k = s.reg k := rfl
@[simp] theorem setDt_keyDown (s : State) (b : Byte) (k : Nibble) : (s.setDt b).keyDown k = s.keyDown k := rfl
@[simp] theorem setDt_readByte (s : State) (b : Byte) (n : Nat) : (s.setDt b).readByte n = s.readByte n := rfl

/-! #### setSt -/

@[simp] theorem setSt_mem (s : State) (b : Byte) : (s.setSt b).mem = s.mem := rfl
@[simp] theorem setSt_font (s : State) (b : Byte) : (s.setSt b).font = s.font := rfl
@[simp] theorem setSt_v (s : State) (b : Byte) : (s.setSt b).v = s.v := rfl
@[simp] theorem setSt_i (s : State) (b : Byte) : (s.setSt b).i = s.i := rfl
@[simp] theorem setSt_pc (s : State) (b : Byte) : (s.setSt b).pc = s.pc := rfl
@[simp] theorem setSt_stack (s : State) (b : Byte) : (s.setSt b).stack = s.stack := rfl
@[simp] theorem setSt_sp (s : State) (b : Byte) : (s.setSt b).sp = s.sp := rfl
@[simp] theorem setSt_dt (s : State) (b : Byte) : (s.setSt b).dt = s.dt := rfl
@[simp] theorem setSt_st (s : State) (b : Byte) : (s.setSt b).st = b := rfl
@[simp] theorem setSt_fb (s : State) (b : Byte) : (s.setSt b).fb = s.fb := rfl
@[simp] theorem setSt_key (s : State) (b : Byte) : (s.setSt b).key = s.key := rfl
@[simp] theorem setSt_dirty (s : State) (b : Byte) : (s.setSt b).dirty = s.dirty := rfl
@[simp] theorem setSt_halted (s : State) (b : Byte) : (s.setSt b).halted = s.halted := rfl
@[simp] theorem setSt_lastError (s : State) (b : Byte) : (s.setSt b).lastError = s.lastError := rfl
@[simp] theorem setSt_beep (s : State) (b : Byte) : (s.setSt b).beep = s.beep := rfl
@[simp] theorem setSt_draws (s : State) (b : Byte) : (s.setSt b).draws = s.draws := rfl
@[simp] theorem setSt_reg (s : State) (b : Byte) (k : Nibble) : (s.setSt b).reg k = s.reg k := rfl
@[simp] theorem setSt_keyDown (s : State) (b : Byte) (k : Nibble) : (s.setSt b).keyDown k = s.keyDown k := rfl
@[simp] theorem setSt_readByte (s : State) (b : Byte) (n : Nat) : (s.setSt b).readByte n = s.readByte n := rfl

/-! #### setFb -/

@[simp] theorem setFb_mem (s : State) (fb : Framebuffer) : (s.setFb fb).mem = s.mem := rfl
@[simp] theorem setFb_font (s : State) (fb : Framebuffer) : (s.setFb fb).font = s.font := rfl
@[simp] theorem setFb_v (s : State) (fb : Framebuffer) : (s.setFb fb).v = s.v := rfl
@[simp] theorem setFb_i (s : State) (fb : Framebuffer) : (s.setFb fb).i = s.i := rfl
@[simp] theorem setFb_pc (s : State) (fb : Framebuffer) : (s.setFb fb).pc = s.pc := rfl
@[simp] theorem setFb_stack (s : State) (fb : Framebuffer) : (s.setFb fb).stack = s.stack := rfl
@[simp] theorem setFb_sp (s : State) (fb : Framebuffer) : (s.setFb fb).sp = s.sp := rfl
@[simp] theorem setFb_dt (s : State) (fb : Framebuffer) : (s.setFb fb).dt = s.dt := rfl
@[simp] theorem setFb_st (s : State) (fb : Framebuffer) : (s.setFb fb).st = s.st := rfl
@[simp] theorem setFb_fb (s : State) (fb : Framebuffer) : (s.setFb fb).fb = fb := rfl
@[simp] theorem setFb_key (s : State) (fb : Framebuffer) : (s.setFb fb).key = s.key := rfl
@[simp] theorem setFb_dirty (s : State) (fb : Framebuffer) : (s.setFb fb).dirty = s.dirty := rfl
@[simp] theorem setFb_halted (s : State) (fb : Framebuffer) : (s.setFb fb).halted = s.halted := rfl
@[simp] theorem setFb_lastError (s : State) (fb : Framebuffer) : (s.setFb fb).lastError = s.lastError := rfl
@[simp] theorem setFb_beep (s : State) (fb : Framebuffer) : (s.setFb fb).beep = s.beep := rfl
@[simp] theorem setFb_draws (s : State) (fb : Framebuffer) : (s.setFb fb).draws = s.draws := rfl
@[simp] theorem setFb_reg (s : State) (fb : Framebuffer) (k : Nibble) : (s.setFb fb).reg k = s.reg k := rfl
@[simp] theorem setFb_keyDown (s : State) (fb : Framebuffer) (k : Nibble) : (s.setFb fb).keyDown k = s.keyDown k := rfl
@[simp] theorem setFb_readByte (s : State) (fb : Framebuffer) (n : Nat) : (s.setFb fb).readByte n = s.readByte n := rfl

/-! #### setDirty -/

@[simp] theorem setDirty_mem (s : State) (d : Bool) : (s.setDirty d).mem = s.mem := rfl
@[simp] theorem setDirty_font (s : State) (d : Bool) : (s.setDirty d).font = s.font := rfl
@[simp] theorem setDirty_v (s : State) (d : Bool) : (s.setDirty d).v = s.v := rfl
@[simp] theorem setDirty_i (s : State) (d : Bool) : (s.setDirty d).i = s.i := rfl
@[simp] theorem setDirty_pc (s : State) (d : Bool) : (s.setDirty d).pc = s.pc := rfl
@[simp] theorem setDirty_stack (s : State) (d : Bool) : (s.setDirty d).stack = s.stack := rfl
@[simp] theorem setDirty_sp (s : State) (d : Bool) : (s.setDirty d).sp = s.sp := rfl
@[simp] theorem setDirty_dt (s : State) (d : Bool) : (s.setDirty d).dt = s.dt := rfl
@[simp] theorem setDirty_st (s : State) (d : Bool) : (s.setDirty d).st = s.st := rfl
@[simp] theorem setDirty_fb (s : State) (d : Bool) : (s.setDirty d).fb = s.fb := rfl
@[simp] theorem setDirty_key (s : State) (d : Bool) : (s.setDirty d).key = s.key := rfl
@[simp] theorem setDirty_dirty (s : State) (d : Bool) : (s.setDirty d).dirty = d := rfl
@[simp] theorem setDirty_halted (s : State) (d : Bool) : (s.setDirty d).halted = s.halted := rfl
@[simp] theorem setDirty_lastError (s : State) (d : Bool) : (s.setDirty d).lastError = s.lastError := rfl
@[simp] theorem setDirty_beep (s : State) (d : Bool) : (s.setDirty d).beep = s.beep := rfl
@[simp] theorem setDirty_draws (s : State) (d : Bool) : (s.setDirty d).draws = s.draws := rfl
@[simp] theorem setDirty_reg (s : State) (d : Bool) (k : Nibble) : (s.setDirty d).reg k = s.reg k := rfl
@[simp] theorem setDirty_keyDown (s : State) (d : Bool) (k : Nibble) : (s.setDirty d).keyDown k = s.keyDown k := rfl
@[simp] theorem setDirty_readByte (s : State) (d : Bool) (n : Nat) : (s.setDirty d).readByte n = s.readByte n := rfl

/-! #### setBeep -/

@[simp] theorem setBeep_mem (s : State) (b : Bool) : (s.setBeep b).mem = s.mem := rfl
@[simp] theorem setBeep_font (s : State) (b : Bool) : (s.setBeep b).font = s.font := rfl
@[simp] theorem setBeep_v (s : State) (b : Bool) : (s.setBeep b).v = s.v := rfl
@[simp] theorem setBeep_i (s : State) (b : Bool) : (s.setBeep b).i = s.i := rfl
@[simp] theorem setBeep_pc (s : State) (b : Bool) : (s.setBeep b).pc = s.pc := rfl
@[simp] theorem setBeep_stack (s : State) (b : Bool) : (s.setBeep b).stack = s.stack := rfl
@[simp] theorem setBeep_sp (s : State) (b : Bool) : (s.setBeep b).sp = s.sp := rfl
@[simp] theorem setBeep_dt (s : State) (b : Bool) : (s.setBeep b).dt = s.dt := rfl
@[simp] theorem setBeep_st (s : State) (b : Bool) : (s.setBeep b).st = s.st := rfl
@[simp] theorem setBeep_fb (s : State) (b : Bool) : (s.setBeep b).fb = s.fb := rfl
@[simp] theorem setBeep_key (s : State) (b : Bool) : (s.setBeep b).key = s.key := rfl
@[simp] theorem setBeep_dirty (s : State) (b : Bool) : (s.setBeep b).dirty = s.dirty := rfl
@[simp] theorem setBeep_halted (s : State) (b : Bool) : (s.setBeep b).halted = s.halted := rfl
@[simp] theorem setBeep_lastError (s : State) (b : Bool) : (s.setBeep b).lastError = s.lastError := rfl
@[simp] theorem setBeep_beep (s : State) (b : Bool) : (s.setBeep b).beep = b := rfl
@[simp] theorem setBeep_draws (s : State) (b : Bool) : (s.setBeep b).draws = s.draws := rfl
@[simp] theorem setBeep_reg (s : State) (b : Bool) (k : Nibble) : (s.setBeep b).reg k = s.reg k := rfl
@[simp] theorem setBeep_keyDown (s : State) (b : Bool) (k : Nibble) : (s.setBeep b).keyDown k = s.keyDown k := rfl
@[simp] theorem setBeep_readByte (s : State) (b : Bool) (n : Nat) : (s.setBeep b).readByte n = s.readByte n := rfl

/-! #### setKey -/

@[simp] theorem setKey_mem (s : State) (k : Nibble) (p : Bool) : (s.setKey k p).mem = s.mem := rfl
@[simp] theorem setKey_font (s : State) (k : Nibble) (p : Bool) : (s.setKey k p).font = s.font := rfl
@[simp] theorem setKey_v (s : State) (k : Nibble) (p : Bool) : (s.setKey k p).v = s.v := rfl
@[simp] theorem setKey_i (s : State) (k : Nibble) (p : Bool) : (s.setKey k p).i = s.i := rfl
@[simp] theorem setKey_pc (s : State) (k : Nibble) (p : Bool) : (s.setKey k p).pc = s.pc := rfl
@[simp] theorem setKey_stack (s : State) (k : Nibble) (p : Bool) : (s.setKey k p).stack = s.stack := rfl
@[simp] theorem setKey_sp (s : State) (k : Nibble) (p : Bool) : (s.setKey k p).sp = s.sp := rfl
@[simp] theorem setKey_dt (s : State) (k : Nibble) (p : Bool) : (s.setKey k p).dt = s.dt := rfl
@[simp] theorem setKey_st (s : State) (k : Nibble) (p : Bool) : (s.setKey k p).st = s.st := rfl
@[simp] theorem setKey_fb (s : State) (k : Nibble) (p : Bool) : (s.setKey k p).fb = s.fb := rfl
@[simp] theorem setKey_key (s : State) (k : Nibble) (p : Bool) : (s.setKey k p).key = s.key.set k.toNat p := rfl
@[simp] theorem setKey_dirty (s : State) (k : Nibble) (p : Bool) : (s.setKey k p).dirty = s.dirty := rfl
@[simp] theorem setKey_halted (s : State) (k : Nibble) (p : Bool) : (s.setKey k p).halted = s.halted := rfl
@[simp] theorem setKey_lastError (s : State) (k : Nibble) (p : Bool) : (s.setKey k p).lastError = s.lastError := rfl
@[simp] theorem setKey_beep (s : State) (k : Nibble) (p : Bool) : (s.setKey k p).beep = s.beep := rfl
@[simp] theorem setKey_draws (s : State) (k : Nibble) (p : Bool) : (s.setKey k p).draws = s.draws := rfl
@[simp] theorem setKey_reg (s : State) (k : Nibble) (p : Bool) (j : Nibble) : (s.setKey k p).reg j = s.reg j := rfl
@[simp] theorem setKey_readByte (s : State) (k : Nibble) (p : Bool) (n : Nat) : (s.setKey k p).readByte n = s.readByte n := rfl

/-! #### countDraw -/

@[simp] theorem countDraw_mem (s : State) : (s.countDraw).mem = s.mem := rfl
@[simp] theorem countDraw_font (s : State) : (s.countDraw).font = s.font := rfl
@[simp] theorem countDraw_v (s : State) : (s.countDraw).v = s.v := rfl
@[simp] theorem countDraw_i (s : State) : (s.countDraw).i = s.i := rfl
@[simp] theorem countDraw_pc (s : State) : (s.countDraw).pc = s.pc := rfl
@[simp] theorem countDraw_stack (s : State) : (s.countDraw).stack = s.stack := rfl
@[simp] theorem countDraw_sp (s : State) : (s.countDraw).sp = s.sp := rfl
@[simp] theorem countDraw_dt (s : State) : (s.countDraw).dt = s.dt := rfl
@[simp] theorem countDraw_st (s : State) : (s.countDraw).st = s.st := rfl
@[simp] theorem countDraw_fb (s : State) : (s.countDraw).fb = s.fb := rfl
@[simp] theorem countDraw_key (s : State) : (s.countDraw).key = s.key := rfl
@[simp] theorem countDraw_dirty (s : State) : (s.countDraw).dirty = s.dirty := rfl
@[simp] theorem countDraw_halted (s : State) : (s.countDraw).halted = s.halted := rfl
@[simp] theorem countDraw_lastError (s : State) : (s.countDraw).lastError = s.lastError := rfl
@[simp] theorem countDraw_beep (s : State) : (s.countDraw).beep = s.beep := rfl
@[simp] theorem countDraw_draws (s : State) : (s.countDraw).draws = s.draws + 1 := rfl
@[simp] theorem countDraw_reg (s : State) (k : Nibble) : (s.countDraw).reg k = s.reg k := rfl
@[simp] theorem countDraw_keyDown (s : State) (k : Nibble) : (s.countDraw).keyDown k = s.keyDown k := rfl
@[simp] theorem countDraw_readByte (s : State) (n : Nat) : (s.countDraw).readByte n = s.readByte n := rfl

/-! #### putByte -/

@[simp] theorem putByte_mem (s : State) (a : Nat) (b : Byte) : (s.putByte a b).mem = Mem.put (unlistedByte s.font a) a b s.mem := rfl
@[simp] theorem putByte_font (s : State) (a : Nat) (b : Byte) : (s.putByte a b).font = s.font := rfl
@[simp] theorem putByte_v (s : State) (a : Nat) (b : Byte) : (s.putByte a b).v = s.v := rfl
@[simp] theorem putByte_i (s : State) (a : Nat) (b : Byte) : (s.putByte a b).i = s.i := rfl
@[simp] theorem putByte_pc (s : State) (a : Nat) (b : Byte) : (s.putByte a b).pc = s.pc := rfl
@[simp] theorem putByte_stack (s : State) (a : Nat) (b : Byte) : (s.putByte a b).stack = s.stack := rfl
@[simp] theorem putByte_sp (s : State) (a : Nat) (b : Byte) : (s.putByte a b).sp = s.sp := rfl
@[simp] theorem putByte_dt (s : State) (a : Nat) (b : Byte) : (s.putByte a b).dt = s.dt := rfl
@[simp] theorem putByte_st (s : State) (a : Nat) (b : Byte) : (s.putByte a b).st = s.st := rfl
@[simp] theorem putByte_fb (s : State) (a : Nat) (b : Byte) : (s.putByte a b).fb = s.fb := rfl
@[simp] theorem putByte_key (s : State) (a : Nat) (b : Byte) : (s.putByte a b).key = s.key := rfl
@[simp] theorem putByte_dirty (s : State) (a : Nat) (b : Byte) : (s.putByte a b).dirty = s.dirty := rfl
@[simp] theorem putByte_halted (s : State) (a : Nat) (b : Byte) : (s.putByte a b).halted = s.halted := rfl
@[simp] theorem putByte_lastError (s : State) (a : Nat) (b : Byte) : (s.putByte a b).lastError = s.lastError := rfl
@[simp] theorem putByte_beep (s : State) (a : Nat) (b : Byte) : (s.putByte a b).beep = s.beep := rfl
@[simp] theorem putByte_draws (s : State) (a : Nat) (b : Byte) : (s.putByte a b).draws = s.draws := rfl
@[simp] theorem putByte_reg (s : State) (a : Nat) (b : Byte) (k : Nibble) : (s.putByte a b).reg k = s.reg k := rfl
@[simp] theorem putByte_keyDown (s : State) (a : Nat) (b : Byte) (k : Nibble) : (s.putByte a b).keyDown k = s.keyDown k := rfl

/-! #### recordError -/

@[simp] theorem recordError_mem (s : State) (e : ErrorCause) : (s.recordError e).mem = s.mem := rfl
@[simp] theorem recordError_font (s : State) (e : ErrorCause) : (s.recordError e).font = s.font := rfl
@[simp] theorem recordError_v (s : State) (e : ErrorCause) : (s.recordError e).v = s.v := rfl
@[simp] theorem recordError_i (s : State) (e : ErrorCause) : (s.recordError e).i = s.i := rfl
@[simp] theorem recordError_pc (s : State) (e : ErrorCause) : (s.recordError e).pc = s.pc := rfl
@[simp] theorem recordError_stack (s : State) (e : ErrorCause) : (s.recordError e).stack = s.stack := rfl
@[simp] theorem recordError_sp (s : State) (e : ErrorCause) : (s.recordError e).sp = s.sp := rfl
@[simp] theorem recordError_dt (s : State) (e : ErrorCause) : (s.recordError e).dt = s.dt := rfl
@[simp] theorem recordError_st (s : State) (e : ErrorCause) : (s.recordError e).st = s.st := rfl
@[simp] theorem recordError_fb (s : State) (e : ErrorCause) : (s.recordError e).fb = s.fb := rfl
@[simp] theorem recordError_key (s : State) (e : ErrorCause) : (s.recordError e).key = s.key := rfl
@[simp] theorem recordError_dirty (s : State) (e : ErrorCause) : (s.recordError e).dirty = s.dirty := rfl
@[simp] theorem recordError_halted (s : State) (e : ErrorCause) : (s.recordError e).halted = s.halted := rfl
@[simp] theorem recordError_lastError (s : State) (e : ErrorCause) : (s.recordError e).lastError = some ⟨e, s.pc⟩ := rfl
@[simp] theorem recordError_beep (s : State) (e : ErrorCause) : (s.recordError e).beep = s.beep := rfl
@[simp] theorem recordError_draws (s : State) (e : ErrorCause) : (s.recordError e).draws = s.draws := rfl
@[simp] theorem recordError_reg (s : State) (e : ErrorCause) (k : Nibble) : (s.recordError e).reg k = s.reg k := rfl
@[simp] theorem recordError_keyDown (s : State) (e : ErrorCause) (k : Nibble) : (s.recordError e).keyDown k = s.keyDown k := rfl
@[simp] theorem recordError_readByte (s : State) (e : ErrorCause) (n : Nat) : (s.recordError e).readByte n = s.readByte n := rfl

/-! #### enterFatal -/

@[simp] theorem enterFatal_mem (s : State) (e : ErrorCause) : (s.enterFatal e).mem = s.mem := rfl
@[simp] theorem enterFatal_font (s : State) (e : ErrorCause) : (s.enterFatal e).font = s.font := rfl
@[simp] theorem enterFatal_v (s : State) (e : ErrorCause) : (s.enterFatal e).v = s.v := rfl
@[simp] theorem enterFatal_i (s : State) (e : ErrorCause) : (s.enterFatal e).i = s.i := rfl
@[simp] theorem enterFatal_pc (s : State) (e : ErrorCause) : (s.enterFatal e).pc = s.pc := rfl
@[simp] theorem enterFatal_stack (s : State) (e : ErrorCause) : (s.enterFatal e).stack = s.stack := rfl
@[simp] theorem enterFatal_sp (s : State) (e : ErrorCause) : (s.enterFatal e).sp = s.sp := rfl
@[simp] theorem enterFatal_dt (s : State) (e : ErrorCause) : (s.enterFatal e).dt = s.dt := rfl
@[simp] theorem enterFatal_st (s : State) (e : ErrorCause) : (s.enterFatal e).st = s.st := rfl
@[simp] theorem enterFatal_fb (s : State) (e : ErrorCause) : (s.enterFatal e).fb = s.fb := rfl
@[simp] theorem enterFatal_key (s : State) (e : ErrorCause) : (s.enterFatal e).key = s.key := rfl
@[simp] theorem enterFatal_dirty (s : State) (e : ErrorCause) : (s.enterFatal e).dirty = s.dirty := rfl
@[simp] theorem enterFatal_halted (s : State) (e : ErrorCause) : (s.enterFatal e).halted = true := rfl
@[simp] theorem enterFatal_lastError (s : State) (e : ErrorCause) : (s.enterFatal e).lastError = some ⟨e, s.pc⟩ := rfl
@[simp] theorem enterFatal_beep (s : State) (e : ErrorCause) : (s.enterFatal e).beep = s.beep := rfl
@[simp] theorem enterFatal_draws (s : State) (e : ErrorCause) : (s.enterFatal e).draws = s.draws := rfl
@[simp] theorem enterFatal_reg (s : State) (e : ErrorCause) (k : Nibble) : (s.enterFatal e).reg k = s.reg k := rfl
@[simp] theorem enterFatal_keyDown (s : State) (e : ErrorCause) (k : Nibble) : (s.enterFatal e).keyDown k = s.keyDown k := rfl
@[simp] theorem enterFatal_readByte (s : State) (e : ErrorCause) (n : Nat) : (s.enterFatal e).readByte n = s.readByte n := rfl

end Sys2Proof.Machine
end

