-- ==== Sys2Proof/Laws/Registers.lean ====
section
/-! SUPPORT. The laws of the V registers and of the call stack. -/

namespace Sys2Proof.Machine

/-! ### V registers -/

theorem reg_setReg (s : State) (x k : Nibble) (b : Byte) :
    (s.setReg x b).reg k = if k = x then b else s.reg k := by
  by_cases h : k = x
  · subst h; simp [State.reg, State.setReg]
  · have hne : x.toNat ≠ k.toNat := fun e => h (BitVec.eq_of_toNat_eq e.symm)
    simp [State.reg, State.setReg, h, hne]

theorem reg_setFlag (s : State) (k : Nibble) (b : Byte) :
    (s.setFlag b).reg k = if k = 15 then b else s.reg k := reg_setReg s 15 k b

/-- R133: the flag is written last, so VF holds the flag even when X is 15. -/
theorem reg_setResultAndFlag (s : State) (x k : Nibble) (result flag : Byte) :
    (s.setResultAndFlag x result flag).reg k = if k = 15 then flag else if k = x then result else s.reg k := by
  simp only [State.setResultAndFlag, reg_setFlag, reg_setReg]

/-- Writing consecutive registers changes `v` and nothing else. -/
theorem setRegs_eq (s : State) (k : Nat) (bs : List Byte) : s.setRegs k bs = { s with v := (s.setRegs k bs).v } := by
  induction bs generalizing s k with
  | nil => rfl
  | cons b bs ih => rw [State.setRegs, ih]; rfl

/-- The registers after consecutive writes from `k` on. -/
theorem reg_setRegs (s : State) (k : Nat) (bs : List Byte) (hk : k + bs.length ≤ 16) (j : Nibble) :
    (s.setRegs k bs).reg j = if k ≤ j.toNat ∧ j.toNat < k + bs.length then bs.getD (j.toNat - k) 0 else s.reg j := by
  induction bs generalizing s k with
  | nil => simp [State.setRegs, show ¬ (k ≤ j.toNat ∧ j.toNat < k) by omega]
  | cons b bs ih =>
    simp only [List.length_cons] at hk
    have hjk : (j = BitVec.ofNat 4 k) ↔ j.toNat = k := by
      rw [← BitVec.toNat_inj, BitVec.toNat_ofNat, Nat.mod_eq_of_lt (by omega)]
    rw [State.setRegs, ih _ _ (by omega), reg_setReg]
    simp only [List.length_cons, hjk]
    rcases Nat.lt_trichotomy j.toNat k with h | h | h
    · rw [if_neg (by omega), if_neg (by omega), if_neg (by omega)]
    · rw [if_neg (by omega), if_pos h, if_pos (by omega)]
      simp [h]
    · rw [show j.toNat - k = (j.toNat - (k + 1)) + 1 by omega]
      by_cases h2 : j.toNat < k + (bs.length + 1)
      · rw [if_pos (by omega), if_pos (by omega)]
        rfl
      · rw [if_neg (by omega), if_neg (by omega), if_neg (by omega)]

theorem firstRegs_length (s : State) (n : Nat) : (s.firstRegs n).length = n := by simp [State.firstRegs]

theorem firstRegs_getElem? (s : State) (n k : Nat) (h : k < n) :
    (s.firstRegs n)[k]? = some (s.reg (BitVec.ofNat 4 k)) := by
  simp [State.firstRegs, h]

/-! ### The call stack -/

/-- What a push answers: the entry SP names, and one more entry in use; nothing when the stack is full. -/
theorem push_eq_some {s t : State} {w : Word} (h : s.push w = some t) :
    s.sp.val < 16 ∧ t.sp.val = s.sp.val + 1 ∧ t = { s with stack := t.stack, sp := t.sp } ∧
      ∀ k : Fin 16, t.stack[k] = if k.val = s.sp.val then w else s.stack[k] := by
  unfold State.push at h
  split at h
  · cases h
    refine ⟨‹_›, rfl, rfl, fun k => ?_⟩
    by_cases hk : s.sp.val = k.val
    · simp [hk]
    · simp [hk, show ¬ k.val = s.sp.val by omega]
  · cases h

theorem push_eq_none {s : State} {w : Word} : s.push w = none ↔ s.sp.val = 16 := by
  unfold State.push
  split <;> simp <;> omega

/-- What a pop answers: the entry below SP, which keeps its value, and one entry fewer in use. -/
theorem pop_eq_some {s t : State} {w : Word} (h : s.pop = some (w, t)) :
    0 < s.sp.val ∧ t.sp.val + 1 = s.sp.val ∧ t = { s with sp := t.sp } ∧ s.stack[t.sp.val]? = some w := by
  unfold State.pop at h
  split at h
  · cases h
    refine ⟨‹_›, by simp; omega, rfl, ?_⟩
    have : s.sp.val - 1 < 16 := by omega
    simp [this]
  · cases h

theorem pop_eq_none {s : State} : s.pop = none ↔ s.sp.val = 0 := by
  unfold State.pop
  split <;> simp <;> omega

end Sys2Proof.Machine
end

