-- ==== Sys2Proof/Laws/KeysDisplay.lean ====
section
/-! SUPPORT. The laws of the keypad operations (R190 to R192) and of the framebuffer (R171, R172). -/

namespace Sys2Proof.Machine

/-! ### Keys -/

theorem mem_allKeys (k : Nibble) : k ∈ allKeys := by
  revert k; decide

theorem mem_pressedKeys {s : State} {k : Nibble} : k ∈ pressedKeys s ↔ s.keyDown k = true := by
  simp [pressedKeys, mem_allKeys]

theorem pressedKeys_eq_nil {s : State} : pressedKeys s = [] ↔ ∀ k, s.keyDown k = false := by
  simp [pressedKeys, List.filter_eq_nil_iff, mem_allKeys]

/-- The choice is a member of the set offered (D17). -/
theorem chooseKey_mem (take : Nibble → Bool) (k : Nibble) (ks : List Nibble) : chooseKey take k ks ∈ k :: ks := by
  induction ks generalizing k with
  | nil => simp [chooseKey]
  | cons k' ks ih =>
    simp only [chooseKey]
    split
    · simp
    · exact List.mem_cons_of_mem _ (ih k')

/-- Every member of the set can be the choice, so the free value leaves none out (D17). -/
theorem chooseKey_surjective {k : Nibble} {ks : List Nibble} {m : Nibble} (h : m ∈ k :: ks) :
    ∃ take, chooseKey take k ks = m := by
  refine ⟨fun j => j == m, ?_⟩
  induction ks generalizing k with
  | nil => simp at h; simp [chooseKey, h]
  | cons k' ks ih =>
    by_cases hk : k = m
    · simp [chooseKey, hk]
    · have hm : m ∈ k' :: ks := (List.mem_cons.1 h).resolve_left fun e => hk e.symm
      simpa [chooseKey, hk] using ih hm

theorem keyOf_eq_some {b : Byte} {k : Nibble} (h : keyOf b = some k) : b.toNat ≤ 15 ∧ k.toNat = b.toNat := by
  unfold keyOf at h
  split at h
  · cases h; exact ⟨‹_›, by simp; omega⟩
  · cases h

theorem keyOf_eq_none {b : Byte} : keyOf b = none ↔ 15 < b.toNat := by
  unfold keyOf
  split <;> simp <;> omega

/-! ### The framebuffer -/

theorem cell_clear (x y : Nat) : Framebuffer.clear.cell x y = false := by
  simp [Framebuffer.cell, Framebuffer.clear]

/-- Two coordinates name one cell when they agree modulo the screen (R172). -/
def sameCell (p q : Nat × Nat) : Bool := p.1 % 64 == q.1 % 64 && p.2 % 32 == q.2 % 32

/-- A toggle flips the one cell it lands on. -/
theorem cell_toggle (fb : Framebuffer) (x y x' y' : Nat) :
    (fb.toggle x y).cell x' y' = (fb.cell x' y' ^^ sameCell (x, y) (x', y')) := by
  have hx : x' % 64 < 64 := Nat.mod_lt _ (by decide)
  by_cases h : y % 32 = y' % 32
  · simp only [Framebuffer.cell, Framebuffer.toggle, sameCell, h, Vector.getElem_set_self, BitVec.getLsbD_xor,
      BitVec.getLsbD_twoPow, beq_self_eq_true, Bool.and_true]
    by_cases h2 : x % 64 = x' % 64
    · simp [h2, hx]
    · simp [h2, beq_eq_false_iff_ne.2 h2]
  · have hne : (y % 32 == y' % 32) = false := beq_eq_false_iff_ne.2 h
    simp [Framebuffer.cell, Framebuffer.toggle, sameCell, hne, h]

/-- A whole sequence of toggles flips a cell as often as it is landed on. -/
theorem cell_foldl_togglePixel (ps : List (Nat × Nat)) (acc : Framebuffer × Bool) (x y : Nat) :
    (ps.foldl togglePixel acc).1.cell x y =
      (acc.1.cell x y ^^ decide (ps.countP (fun p => sameCell p (x, y)) % 2 = 1)) := by
  induction ps generalizing acc with
  | nil => simp
  | cons p ps ih =>
    rw [List.foldl_cons, ih, List.countP_cons]
    simp only [togglePixel, cell_toggle]
    cases sameCell (p.1, p.2) (x, y) <;>
      rcases Nat.mod_two_eq_zero_or_one (ps.countP fun p => sameCell p (x, y)) with h | h <;>
        simp [h, Nat.add_mod]

end Sys2Proof.Machine
end

