-- ==== Sys2Proof/Laws/Memory.lean ====
section
/-! SUPPORT. The laws of memory: a read after a write, the canonical form kept by every operation, and what the range
accesses of R153 to R155 and R171 answer, said once each. -/

namespace Sys2Proof.Machine

/-! ### The canonical form -/

theorem Mem.wfFrom_cons {font : Vector Byte 80} {lo k : Nat} {b : Byte} {m : List Host.Cell} :
    Mem.wfFrom font lo ((k, b) :: m) = true ↔
      lo ≤ k ∧ k < 4096 ∧ b ≠ unlistedByte font k ∧ Mem.wfFrom font (k + 1) m = true := by
  simp [Mem.wfFrom, and_assoc]

theorem Mem.wfFrom_mono {font : Vector Byte 80} {lo lo' : Nat} {m : List Host.Cell}
    (h : Mem.wfFrom font lo m = true) (hle : lo' ≤ lo) : Mem.wfFrom font lo' m = true := by
  cases m with
  | nil => rfl
  | cons c m =>
    obtain ⟨h1, h2⟩ := Mem.wfFrom_cons.1 h
    exact Mem.wfFrom_cons.2 ⟨by omega, h2⟩

/-- Below the first listed address nothing is found. -/
theorem Mem.find_eq_none {font : Vector Byte 80} {lo a : Nat} {m : List Host.Cell}
    (h : Mem.wfFrom font lo m = true) (ha : a < lo) : Mem.find a m = none := by
  cases m with
  | nil => rfl
  | cons c m =>
    have hk := (Mem.wfFrom_cons.1 h).1
    simp [Mem.find, show a < c.1 by omega]

/-- A write keeps the canonical form. -/
theorem Mem.put_wfFrom {font : Vector Byte 80} {a : Nat} (b : Byte) (ha : a < 4096) :
    ∀ {m : List Host.Cell} {lo : Nat}, Mem.wfFrom font lo m = true → lo ≤ a →
      Mem.wfFrom font lo (Mem.put (unlistedByte font a) a b m) = true
  | [], lo, _, hlo => by
    by_cases hb : b = unlistedByte font a <;> simp [Mem.put, Mem.wfFrom, hb, hlo, ha]
  | (k, c) :: m, lo, h, hlo => by
    obtain ⟨h1, h2, h3, h4⟩ := Mem.wfFrom_cons.1 h
    rcases Nat.lt_trichotomy a k with hak | hak | hak
    · by_cases hb : b = unlistedByte font a
      · simpa [Mem.put, hak, hb] using h
      · simp only [Mem.put, hak, if_true, hb, if_false]
        exact Mem.wfFrom_cons.2 ⟨hlo, ha, hb, Mem.wfFrom_cons.2 ⟨by omega, h2, h3, h4⟩⟩
    · subst hak
      by_cases hb : b = unlistedByte font a
      · simpa [Mem.put, hb] using Mem.wfFrom_mono h4 (by omega)
      · simp only [Mem.put, Nat.lt_irrefl, if_true, hb, if_false]
        exact Mem.wfFrom_cons.2 ⟨hlo, ha, hb, h4⟩
    · have : ¬ a < k := by omega
      have : a ≠ k := by omega
      simp only [Mem.put, *, if_false]
      exact Mem.wfFrom_cons.2 ⟨h1, h2, h3, Mem.put_wfFrom b ha h4 (by omega)⟩

/-- What is found where a byte was just written. -/
theorem Mem.find_put_same {font : Vector Byte 80} (u : Byte) (a : Nat) (b : Byte) :
    ∀ {m : List Host.Cell} {lo : Nat}, Mem.wfFrom font lo m = true →
      Mem.find a (Mem.put u a b m) = if b = u then none else some b
  | [], _, _ => by by_cases hb : b = u <;> simp [Mem.put, Mem.find, hb]
  | (k, c) :: m, lo, h => by
    obtain ⟨_, _, _, h4⟩ := Mem.wfFrom_cons.1 h
    rcases Nat.lt_trichotomy a k with hak | hak | hak
    · by_cases hb : b = u <;> simp [Mem.put, Mem.find, hak, hb]
    · subst hak
      by_cases hb : b = u
      · simpa [Mem.put, hb] using Mem.find_eq_none h4 (by omega)
      · simp [Mem.put, Mem.find, hb]
    · have h1 : ¬ a < k := by omega
      have h2 : a ≠ k := by omega
      simpa [Mem.put, Mem.find, h1, h2] using Mem.find_put_same u a b h4

/-- What is found elsewhere. -/
theorem Mem.find_put_other {font : Vector Byte 80} (u : Byte) {a c : Nat} (b : Byte) (hac : c ≠ a) :
    ∀ {m : List Host.Cell} {lo : Nat}, Mem.wfFrom font lo m = true →
      Mem.find c (Mem.put u a b m) = Mem.find c m
  | [], _, _ => by
    by_cases hb : b = u <;> simp [Mem.put, Mem.find, hb, hac]
  | (k, d) :: m, lo, h => by
    obtain ⟨_, _, _, h4⟩ := Mem.wfFrom_cons.1 h
    rcases Nat.lt_trichotomy a k with hak | hak | hak
    · by_cases hb : b = u
      · simp [Mem.put, hak, hb]
      · by_cases hc : c < a
        · simp [Mem.put, Mem.find, hak, hb, hc, show c < k by omega]
        · simp [Mem.put, Mem.find, hak, hb, hc, hac]
    · subst hak
      by_cases hb : b = u
      · by_cases hc : c < a
        · simpa [Mem.put, Mem.find, hb, hc] using Mem.find_eq_none h4 (by omega)
        · simp [Mem.put, Mem.find, hb, hc, hac]
      · simp [Mem.put, Mem.find, hb, hac]
    · have h1 : ¬ a < k := by omega
      have h2 : a ≠ k := by omega
      simp only [Mem.put, h1, h2, if_false, Mem.find]
      split
      · rfl
      · split
        · rfl
        · exact Mem.find_put_other u b hac h4

/-! ### One byte of a state -/

/-- The reset memory is canonical. -/
theorem reset_memWf : State.reset.memWf = true := rfl

theorem readByte_isSome {s : State} {a : Nat} (ha : a < 4096) : ∃ b, s.readByte a = some b := by
  simp [State.readByte, ha]

theorem readByte_outside {s : State} {a : Nat} (ha : ¬ a < 4096) : s.readByte a = none := by
  simp [State.readByte, ha]

/-- A write keeps the canonical form. -/
theorem putByte_memWf {s : State} {a : Nat} (b : Byte) (h : s.memWf = true) (ha : a < 4096) :
    (s.putByte a b).memWf = true :=
  Mem.put_wfFrom b ha h (Nat.zero_le a)

/-- A read after a write to the same address. -/
theorem readByte_putByte_same {s : State} {a : Nat} (b : Byte) (h : s.memWf = true) (ha : a < 4096) :
    (s.putByte a b).readByte a = some b := by
  simp only [State.readByte, ha, if_true, putByte_mem, putByte_font, Mem.find_put_same _ a b h]
  by_cases hb : b = unlistedByte s.font a <;> simp [hb]

/-- A read after a write elsewhere. -/
theorem readByte_putByte_other {s : State} {a c : Nat} (b : Byte) (h : s.memWf = true) (hac : c ≠ a) :
    (s.putByte a b).readByte c = s.readByte c := by
  simp only [State.readByte, putByte_mem, putByte_font, Mem.find_put_other _ b hac h]

/-! ### Bytes at consecutive addresses -/

/-- Writing bytes changes `mem` and nothing else. -/
theorem putBytes_eq (s : State) (a : Nat) (bs : List Byte) :
    s.putBytes a bs = { s with mem := (s.putBytes a bs).mem } := by
  induction bs generalizing s a with
  | nil => rfl
  | cons b bs ih => rw [State.putBytes, ih]; rfl

theorem putBytes_memWf {s : State} {a : Nat} {bs : List Byte} (h : s.memWf = true) (ha : a + bs.length ≤ 4096) :
    (s.putBytes a bs).memWf = true := by
  induction bs generalizing s a with
  | nil => exact h
  | cons b bs ih =>
    simp only [List.length_cons] at ha
    exact ih (putByte_memWf b h (by omega)) (by omega)

/-- Outside the bytes written every byte reads as before. -/
theorem readByte_putBytes_outside {s : State} {a c : Nat} {bs : List Byte} (h : s.memWf = true)
    (ha : a + bs.length ≤ 4096) (hc : c < a ∨ a + bs.length ≤ c) :
    (s.putBytes a bs).readByte c = s.readByte c := by
  induction bs generalizing s a with
  | nil => rfl
  | cons b bs ih =>
    simp only [List.length_cons] at ha hc
    rw [State.putBytes, ih (putByte_memWf b h (by omega)) (by omega) (by omega), readByte_putByte_other b h (by omega)]

/-- Inside them each byte written is read back. -/
theorem readByte_putBytes_inside {s : State} {a k : Nat} {bs : List Byte} (h : s.memWf = true)
    (ha : a + bs.length ≤ 4096) (hk : k < bs.length) :
    (s.putBytes a bs).readByte (a + k) = bs[k]? := by
  induction bs generalizing s a k with
  | nil => simp at hk
  | cons b bs ih =>
    simp only [List.length_cons] at ha hk
    have hwf : (s.putByte a b).memWf = true := putByte_memWf b h (by omega)
    cases k with
    | zero =>
      have hread := readByte_putByte_same b h (show a < 4096 by omega)
      rw [State.putBytes, readByte_putBytes_outside hwf (by omega) (by omega)]
      exact hread
    | succ k =>
      have := ih (s := s.putByte a b) (a := a + 1) (k := k) hwf (by omega) (by omega)
      rw [State.putBytes, show a + (k + 1) = a + 1 + k by omega, this]
      rfl

/-! ### The access primitives -/

theorem memRead_eq (s : State) (a : Nat) :
    memRead s a = if a < 4096 then .ok ((s.readByte a).getD 0) else .error (.memoryFault .read a) := by
  by_cases ha : a < 4096 <;> simp [memRead, State.readByte, ha]

/-- A read of a range, as the whole-range check of R155 and R171: the address reported is the first one outside `MEM`. -/
theorem memReadRange_eq (s : State) (a n : Nat) :
    memReadRange s a n =
      if n = 0 ∨ a + n ≤ 4096 then .ok ((List.range n).map fun k => (s.readByte (a + k)).getD 0)
      else .error (.memoryFault .read (max a 4096)) := by
  induction n generalizing a with
  | zero => simp [memReadRange]
  | succ n ih =>
    simp only [memReadRange, memRead_eq, ih]
    by_cases ha : a < 4096
    · by_cases hn : n = 0 ∨ a + 1 + n ≤ 4096
      · have : a + (n + 1) ≤ 4096 := by omega
        simp [ha, this, List.range_succ_eq_map, Function.comp_def, Nat.add_comm 1, Nat.add_assoc]
      · have h1 : ¬ a + (n + 1) ≤ 4096 := by omega
        have h2 : max (a + 1) 4096 = 4096 := by omega
        have h3 : max a 4096 = 4096 := by omega
        simp only [ha, hn, h1, h2, h3, if_true, if_false, Nat.succ_ne_zero, false_or]
    · have h1 : ¬ a + (n + 1) ≤ 4096 := by omega
      have h2 : max a 4096 = a := by omega
      simp only [ha, h1, h2, if_false, Nat.succ_ne_zero, false_or]

/-- A write of a range, as the whole-range check of R153 and R154. -/
theorem memWriteRange_eq (s : State) (a : Nat) (bs : List Byte) :
    memWriteRange s a bs =
      if bs = [] then .ok s
      else if a < 0x200 then .error (.memoryFault .protectedWrite a)
      else if 4096 < a + bs.length then .error (.memoryFault .write (max a 4096))
      else .ok (s.putBytes a bs) := by
  induction bs generalizing s a with
  | nil => rfl
  | cons b bs ih =>
    simp only [memWriteRange, memWrite, ih, List.length_cons, State.putBytes]
    rcases Nat.lt_or_ge a 0x200 with hlo | hlo
    · simp [hlo, show ¬ 0xFFF < a by omega]
    · rcases Nat.lt_or_ge 0xFFF a with hhi | hhi
      · have h1 : 4096 < a + (bs.length + 1) := by omega
        have h2 : max a 4096 = a := by omega
        simp [hhi, h1, h2, show ¬ a < 0x200 by omega]
      · by_cases hbs : bs = []
        · subst hbs
          simp [State.putBytes, show ¬ a < 0x200 by omega, show ¬ 0xFFF < a by omega, show ¬ 4096 < a + 1 by omega]
        · have h3 : (4096 < a + 1 + bs.length) = (4096 < a + (bs.length + 1)) := by
            rw [show a + 1 + bs.length = a + (bs.length + 1) by omega]
          have hpos : 0 < bs.length := List.length_pos_iff.2 hbs
          have h4 : 4096 < a + (bs.length + 1) → max (a + 1) 4096 = max a 4096 := by omega
          simp only [hbs, show ¬ a < 0x200 by omega, show ¬ 0xFFF < a by omega, show ¬ a + 1 < 0x200 by omega, if_false,
            h3, reduceCtorEq]
          split
          · rw [h4 ‹_›]
          · rfl

/-- A write range that answers a state has written exactly its bytes, all in the program region. -/
theorem memWriteRange_ok {s t : State} {a : Nat} {bs : List Byte} (h : memWriteRange s a bs = .ok t) (hbs : bs ≠ []) :
    0x200 ≤ a ∧ a + bs.length ≤ 4096 ∧ t = s.putBytes a bs := by
  rw [memWriteRange_eq] at h
  simp only [hbs, if_false] at h
  split at h
  · cases h
  · split at h
    · cases h
    · cases h
      exact ⟨by omega, by omega, rfl⟩

/-- A fetch succeeds exactly up to PC = 0xFFE (R45). -/
theorem fetch_eq (s : State) :
    fetch s =
      if s.pc.toNat ≤ 0xFFE then
        .ok (wordOfBytes ((s.readByte s.pc.toNat).getD 0) ((s.readByte (s.pc.toNat + 1)).getD 0))
      else .error (.memoryFault .fetch s.pc.toNat) := by
  by_cases h : s.pc.toNat ≤ 0xFFE
  · have h1 : s.pc.toNat < 4096 := by omega
    have h2 : s.pc.toNat + 1 < 4096 := by omega
    simp [fetch, State.readByte, h, h1, h2]
  · have h2 : ¬ s.pc.toNat + 1 < 4096 := by omega
    simp [fetch, State.readByte, h, h2]

end Sys2Proof.Machine
end

