-- ==== Sys2Proof/Laws/PerInstr.lean ====
section
/-! SUPPORT. Family `Encoding`: the word an instruction encodes to selects the instruction's own row of R64's table,
`word and mask = match`, whatever its operands. -/

namespace Sys2Proof.Laws.Encoding

/-- The encoded word selects the instruction's row. -/
def Statement (i : Instr) : Prop := i.row.selects (encode i) = true

/-! One lemma per format of R62: the operands lie outside the mask. -/

theorem selects_NNN {p : Word} (nnn : BitVec 12) (h : p &&& 0xF000#16 = p) :
    Row.selects ⟨p, 0xF000#16⟩ (formatNNN p nnn) = true := by
  simp only [Row.selects, beq_iff_eq]
  refine Eq.trans (BitVec.eq_of_getLsbD_eq fun k hk => ?_) h
  interval_cases k <;> simp [formatNNN]

theorem selects_XNN {p : Word} (x : Nibble) (nn : Byte) (h : p &&& 0xF000#16 = p) :
    Row.selects ⟨p, 0xF000#16⟩ (formatXNN p x nn) = true := by
  simp only [Row.selects, beq_iff_eq]
  refine Eq.trans (BitVec.eq_of_getLsbD_eq fun k hk => ?_) h
  interval_cases k <;> simp [formatXNN]

theorem selects_XFN {p : Word} (x : Nibble) (h : p &&& 0xF0FF#16 = p) :
    Row.selects ⟨p, 0xF0FF#16⟩ (formatXFN p x) = true := by
  simp only [Row.selects, beq_iff_eq]
  refine Eq.trans (BitVec.eq_of_getLsbD_eq fun k hk => ?_) h
  interval_cases k <;> simp [formatXFN]

theorem selects_XYN {p : Word} (x y n : Nibble) (h : p &&& 0xF000#16 = p) :
    Row.selects ⟨p, 0xF000#16⟩ (formatXYN p x y n) = true := by
  simp only [Row.selects, beq_iff_eq]
  refine Eq.trans (BitVec.eq_of_getLsbD_eq fun k hk => ?_) h
  interval_cases k <;> simp [formatXYN]

theorem selects_XY0 {p : Word} (x y : Nibble) (h : p &&& 0xF00F#16 = p) :
    Row.selects ⟨p, 0xF00F#16⟩ (formatXYN p x y 0) = true := by
  simp only [Row.selects, beq_iff_eq]
  refine Eq.trans (BitVec.eq_of_getLsbD_eq fun k hk => ?_) h
  interval_cases k <;> simp [formatXYN]

/-! One lemma per instruction. -/

theorem cls : Statement (.cls) := rfl
theorem ret : Statement (.ret) := rfl
theorem jp (nnn : BitVec 12) : Statement (.jp nnn) := selects_NNN nnn (by decide)
theorem call (nnn : BitVec 12) : Statement (.call nnn) := selects_NNN nnn (by decide)
theorem seImm (x : Nibble) (nn : Byte) : Statement (.seImm x nn) := selects_XNN x nn (by decide)
theorem sneImm (x : Nibble) (nn : Byte) : Statement (.sneImm x nn) := selects_XNN x nn (by decide)
theorem seReg (x y : Nibble) (n : Nibble) : Statement (.seReg x y n) := selects_XYN x y n (by decide)
theorem ldImm (x : Nibble) (nn : Byte) : Statement (.ldImm x nn) := selects_XNN x nn (by decide)
theorem addImm (x : Nibble) (nn : Byte) : Statement (.addImm x nn) := selects_XNN x nn (by decide)
theorem ldReg (x y : Nibble) : Statement (.ldReg x y) := selects_XY0 x y (by decide)
theorem orReg (x y : Nibble) : Statement (.orReg x y) := selects_XY0 x y (by decide)
theorem andReg (x y : Nibble) : Statement (.andReg x y) := selects_XY0 x y (by decide)
theorem xorReg (x y : Nibble) : Statement (.xorReg x y) := selects_XY0 x y (by decide)
theorem addReg (x y : Nibble) : Statement (.addReg x y) := selects_XY0 x y (by decide)
theorem subReg (x y : Nibble) : Statement (.subReg x y) := selects_XY0 x y (by decide)
theorem shr (x y : Nibble) : Statement (.shr x y) := selects_XY0 x y (by decide)
theorem subnReg (x y : Nibble) : Statement (.subnReg x y) := selects_XY0 x y (by decide)
theorem shl (x y : Nibble) : Statement (.shl x y) := selects_XY0 x y (by decide)
theorem sneReg (x y : Nibble) (n : Nibble) : Statement (.sneReg x y n) := selects_XYN x y n (by decide)
theorem ldI (nnn : BitVec 12) : Statement (.ldI nnn) := selects_NNN nnn (by decide)
theorem jpV0 (nnn : BitVec 12) : Statement (.jpV0 nnn) := selects_NNN nnn (by decide)
theorem rnd (x : Nibble) (nn : Byte) : Statement (.rnd x nn) := selects_XNN x nn (by decide)
theorem drw (x y : Nibble) (n : Nibble) : Statement (.drw x y n) := selects_XYN x y n (by decide)
theorem skp (x : Nibble) : Statement (.skp x) := selects_XFN x (by decide)
theorem sknp (x : Nibble) : Statement (.sknp x) := selects_XFN x (by decide)
theorem ldVxDt (x : Nibble) : Statement (.ldVxDt x) := selects_XFN x (by decide)
theorem ldVxK (x : Nibble) : Statement (.ldVxK x) := selects_XFN x (by decide)
theorem ldDtVx (x : Nibble) : Statement (.ldDtVx x) := selects_XFN x (by decide)
theorem ldStVx (x : Nibble) : Statement (.ldStVx x) := selects_XFN x (by decide)
theorem addI (x : Nibble) : Statement (.addI x) := selects_XFN x (by decide)
theorem ldF (x : Nibble) : Statement (.ldF x) := selects_XFN x (by decide)
theorem ldB (x : Nibble) : Statement (.ldB x) := selects_XFN x (by decide)
theorem stRegs (x : Nibble) : Statement (.stRegs x) := selects_XFN x (by decide)
theorem ldRegs (x : Nibble) : Statement (.ldRegs x) := selects_XFN x (by decide)

end Sys2Proof.Laws.Encoding
end

