-- ==== Sys2Proof/Laws/Ports.lean ====
section
/-! SUPPORT. The laws of the framebuffer port (R214): its index order is that of the cells (R19, R172). -/

namespace Sys2Proof.Safety

open Sys2Proof.Machine

/-- The host's pixel is the cell the draw acts on. -/
@[simp] theorem hostPixel_eq_cell (s : State) (px : Fin 64) (py : Fin 32) : hostPixel s px py = s.fb.cell px.val py.val := by
  have hx : (py.val * 64 + px.val) % 64 = px.val := by omega
  have hy : (py.val * 64 + px.val) / 64 = py.val := by omega
  simp only [hostPixel, portFramebuffer, hx, hy]

/-- Every index of the port is one pixel, so a claim over the pixels is a claim over all 2048 cells. -/
theorem portFramebuffer_eq_hostPixel (s : State) (index : Fin 2048) :
    portFramebuffer s index =
      hostPixel s ⟨index.val % 64, by omega⟩ ⟨index.val / 64, by omega⟩ := by
  simp only [hostPixel_eq_cell, portFramebuffer]

end Sys2Proof.Safety
end

