-- ==== Sys2Proof/Laws/Step.lean ====
section
/-! SUPPORT. What a STEP can do, said once (R80, R237): the four ways it reaches a next state. -/

namespace Sys2Proof.Machine

theorem step_halted {s : State} (h : s.halted = true) : step s = .next s := by
  simp [step, cycle, h]

theorem step_fetchFault {s : State} {e : ErrorCause} (h : s.halted = false) (hf : fetch s = .error e) :
    step s = .next (s.enterFatal e) := by
  simp [step, cycle, h, hf, takeFault]

theorem step_unknown {s : State} {w : Word} (h : s.halted = false) (hf : fetch s = .ok w)
    (hd : decodeFamily w = none) : step s = .next (s.recordError (.unknownOpcode w)).advance := by
  simp [step, cycle, h, hf, decodeWord, hd, execUnknown]

theorem step_exec {s : State} {w : Word} {i : Instr} (h : s.halted = false) (hf : fetch s = .ok w)
    (hd : decodeWord w = .ok i) : step s = exec i s := by
  simp [step, cycle, h, hf, hd]

/-- Every next state of a STEP comes from the halt gate, a fetch fault, an unrecognised word or a decoded instruction. -/
theorem step_cases {s t : State} (h : step s = .next t) :
    (s.halted = true ∧ t = s) ∨
    (s.halted = false ∧ ∃ e, fetch s = .error e ∧ t = s.enterFatal e) ∨
    (s.halted = false ∧ ∃ w, fetch s = .ok w ∧ decodeFamily w = none ∧ t = (s.recordError (.unknownOpcode w)).advance) ∨
    (s.halted = false ∧ ∃ w i, fetch s = .ok w ∧ decodeWord w = .ok i ∧ exec i s = .next t) := by
  cases hh : s.halted with
  | true =>
    rw [step_halted hh] at h
    cases h
    exact .inl ⟨rfl, rfl⟩
  | false =>
    cases hf : fetch s with
    | error e =>
      rw [step_fetchFault hh hf] at h
      cases h
      exact .inr (.inl ⟨rfl, e, rfl, rfl⟩)
    | ok w =>
      cases hd : decodeFamily w with
      | none =>
        rw [step_unknown hh hf hd] at h
        cases h
        exact .inr (.inr (.inl ⟨rfl, w, rfl, hd, rfl⟩))
      | some i =>
        have hd' : decodeWord w = .ok i := by simp [decodeWord, hd]
        rw [step_exec hh hf hd'] at h
        exact .inr (.inr (.inr ⟨rfl, w, i, rfl, hd', h⟩))

end Sys2Proof.Machine
end

