-- ==== Sys2Proof/Tests/Slice0.lean ====
section
/-! SUPPORT. Tests of the model. Every expected result is the spec's: the vectors V-… of `95_test_vectors.md`, or the rule named.
A witness_… theorem shows a state and operands that meet the hypotheses of an obligation, clause by clause. -/

namespace Sys2Proof.Tests

open Sys2Proof.Machine Sys2Proof.Safety

/-! ## Words: the checks of WellFormed.lean, each with a word it refuses (R65 to R68, R70) -/

theorem test_family0_refuses_0NNN : Word.recognised 0x01E0#16 = false := by decide
theorem test_family8_refuses_8XY8 : Word.recognised 0x8128#16 = false := by decide
theorem test_familyE_refuses_EX9F : Word.recognised 0xE19F#16 = false := by decide
theorem test_familyF_refuses_FXFF : Word.recognised 0xF1FF#16 = false := by decide
theorem test_family5_takes_any_low_nibble : Word.recognised 0x512F#16 = true := by decide

/-- A truncated instruction is rejected by name (R60). -/
theorem test_decode_one_byte : decode [0x60] = .error (.truncated 1) := by decide

/-- V-DEC-2: bits 11:8 are matched in family 0. -/
theorem test_decode_01E0 : decodeWord 0x01E0#16 = .error (.unknownOpcode 0x01E0#16) := by decide

/-! ## Decoding: one word per constructor, bit by bit from R64 and R61 (X = 2, Y = 5, N = 9, NN = 0xB7, NNN = 0xABC) -/

theorem test_decode_cls : decodeWord 0b0000000011100000#16 = .ok (.cls) := by decide
theorem test_decode_ret : decodeWord 0b0000000011101110#16 = .ok (.ret) := by decide
theorem test_decode_jp : decodeWord 0b0001101010111100#16 = .ok (.jp 0xabc) := by decide
theorem test_decode_call : decodeWord 0b0010101010111100#16 = .ok (.call 0xabc) := by decide
theorem test_decode_seImm : decodeWord 0b0011001010110111#16 = .ok (.seImm 0x2 0xb7) := by decide
theorem test_decode_sneImm : decodeWord 0b0100001010110111#16 = .ok (.sneImm 0x2 0xb7) := by decide
theorem test_decode_seReg : decodeWord 0b0101001001011001#16 = .ok (.seReg 0x2 0x5 0x9) := by decide
theorem test_decode_ldImm : decodeWord 0b0110001010110111#16 = .ok (.ldImm 0x2 0xb7) := by decide
theorem test_decode_addImm : decodeWord 0b0111001010110111#16 = .ok (.addImm 0x2 0xb7) := by decide
theorem test_decode_ldReg : decodeWord 0b1000001001010000#16 = .ok (.ldReg 0x2 0x5) := by decide
theorem test_decode_orReg : decodeWord 0b1000001001010001#16 = .ok (.orReg 0x2 0x5) := by decide
theorem test_decode_andReg : decodeWord 0b1000001001010010#16 = .ok (.andReg 0x2 0x5) := by decide
theorem test_decode_xorReg : decodeWord 0b1000001001010011#16 = .ok (.xorReg 0x2 0x5) := by decide
theorem test_decode_addReg : decodeWord 0b1000001001010100#16 = .ok (.addReg 0x2 0x5) := by decide
theorem test_decode_subReg : decodeWord 0b1000001001010101#16 = .ok (.subReg 0x2 0x5) := by decide
theorem test_decode_shr : decodeWord 0b1000001001010110#16 = .ok (.shr 0x2 0x5) := by decide
theorem test_decode_subnReg : decodeWord 0b1000001001010111#16 = .ok (.subnReg 0x2 0x5) := by decide
theorem test_decode_shl : decodeWord 0b1000001001011110#16 = .ok (.shl 0x2 0x5) := by decide
theorem test_decode_sneReg : decodeWord 0b1001001001011001#16 = .ok (.sneReg 0x2 0x5 0x9) := by decide
theorem test_decode_ldI : decodeWord 0b1010101010111100#16 = .ok (.ldI 0xabc) := by decide
theorem test_decode_jpV0 : decodeWord 0b1011101010111100#16 = .ok (.jpV0 0xabc) := by decide
theorem test_decode_rnd : decodeWord 0b1100001010110111#16 = .ok (.rnd 0x2 0xb7) := by decide
theorem test_decode_drw : decodeWord 0b1101001001011001#16 = .ok (.drw 0x2 0x5 0x9) := by decide
theorem test_decode_skp : decodeWord 0b1110001010011110#16 = .ok (.skp 0x2) := by decide
theorem test_decode_sknp : decodeWord 0b1110001010100001#16 = .ok (.sknp 0x2) := by decide
theorem test_decode_ldVxDt : decodeWord 0b1111001000000111#16 = .ok (.ldVxDt 0x2) := by decide
theorem test_decode_ldVxK : decodeWord 0b1111001000001010#16 = .ok (.ldVxK 0x2) := by decide
theorem test_decode_ldDtVx : decodeWord 0b1111001000010101#16 = .ok (.ldDtVx 0x2) := by decide
theorem test_decode_ldStVx : decodeWord 0b1111001000011000#16 = .ok (.ldStVx 0x2) := by decide
theorem test_decode_addI : decodeWord 0b1111001000011110#16 = .ok (.addI 0x2) := by decide
theorem test_decode_ldF : decodeWord 0b1111001000101001#16 = .ok (.ldF 0x2) := by decide
theorem test_decode_ldB : decodeWord 0b1111001000110011#16 = .ok (.ldB 0x2) := by decide
theorem test_decode_stRegs : decodeWord 0b1111001001010101#16 = .ok (.stRegs 0x2) := by decide
theorem test_decode_ldRegs : decodeWord 0b1111001001100101#16 = .ok (.ldRegs 0x2) := by decide

/-! ## One STEP each -/

/-- The state after one STEP on the word `w`, placed where `s` fetches. -/
def stepOn (w : Nat) (s : State) : Option State :=
  match step (s.withFetchWord 16 w) with
  | .next t => some t
  | _ => none

/-- What `f` reads of that state. -/
def seen {α : Type} (w : Nat) (s : State) (f : State → α) : Option α := (stepOn w s).map f

/-- The reset state with VF = 0x55, so that an untouched VF shows. -/
def base : State := State.reset.setReg vf 0x55

/-- `base` with V1 and V2. -/
def base12 (b1 b2 : Byte) : State := (base.setReg 1 b1).setReg 2 b2

/-- The reset state with I and V0. -/
def atIndex (i : Word) (b0 : Byte) : State := (State.reset.setI i).setReg 0 b0

/-- A record of LAST_ERROR at PC = 0x200. -/
def errorAt200 (cause : ErrorCause) : Option ErrorRecord := some { cause := cause, pc := 0x200 }

/-- V-DSP-1. -/
theorem test_cls_clears : seen 0x00E0 ((base.setFb (Framebuffer.clear.toggle 63 0)).setDirty false) (fun t => (t.fb.cell 63 0, t.dirty, t.reg 15)) = some (false, true, 0x55) := by decide
/-- V-FLOW-6. -/
theorem test_ret_pops : seen 0x00EE { State.reset with sp := 1, stack := State.reset.stack.set 0 0x0204 } (fun t => (t.sp, t.pc, t.stack[0])) = some (0, 0x0206, 0x0204) := by decide
/-- V-FLOW-7. -/
theorem test_ret_underflows : seen 0x00EE State.reset (fun t => (t.halted, t.lastError, t.pc)) = some (true, errorAt200 (.stackUnderflow 0), 0x200) := by decide
/-- V-FLOW-1. -/
theorem test_jp : seen 0x1ABC State.reset (fun t => t.pc) = some 0x0ABC := by decide
/-- V-FLOW-3. -/
theorem test_jp_odd : seen 0x1201 State.reset (fun t => (t.pc, t.halted)) = some (0x0201, false) := by decide
/-- V-FLOW-4. -/
theorem test_call_pushes : seen 0x220E State.reset (fun t => (t.stack[0], t.sp, t.pc)) = some (0x0200, 1, 0x020E) := by decide
/-- V-FLOW-5. -/
theorem test_call_overflows : seen 0x220E { State.reset with sp := 16 } (fun t => (t.sp, t.halted, t.lastError)) = some (16, true, errorAt200 (.stackOverflow 16)) := by decide
/-- V-FLOW-8. -/
theorem test_jpV0 : seen 0xB300 (State.reset.setReg 0 0x04) (fun t => t.pc) = some 0x0304 := by decide
/-- V-FLOW-9. -/
theorem test_jpV0_not_wrapped : seen 0xBFFF (State.reset.setReg 0 0xFF) (fun t => t.pc) = some 0x10FE := by decide
/-- V-FLOW-10, V-FLOW-20. -/
theorem test_seImm_skips_unknown_word : seen 0x3A00 State.reset (fun t => (t.pc, t.lastError)) = some (0x0204, none) := by decide
/-- V-FLOW-11. -/
theorem test_seImm_does_not_skip : seen 0x3A00 (State.reset.setReg 10 1) (fun t => t.pc) = some 0x0202 := by decide
/-- V-FLOW-12. -/
theorem test_sneImm_does_not_skip : seen 0x4107 (base12 7 0) (fun t => t.pc) = some 0x0202 := by decide
/-- V-FLOW-13. -/
theorem test_sneImm_skips : seen 0x4108 (base12 7 0) (fun t => t.pc) = some 0x0204 := by decide
/-- V-FLOW-16. -/
theorem test_seReg_ignores_low_nibble : seen 0x512F (base12 9 9) (fun t => t.pc) = some 0x0204 := by decide
/-- V-FLOW-15. -/
theorem test_seReg_does_not_skip : seen 0x5120 (base12 9 8) (fun t => t.pc) = some 0x0202 := by decide
/-- V-FLOW-17. -/
theorem test_sneReg_skips : seen 0x9120 (base12 9 8) (fun t => t.pc) = some 0x0204 := by decide
/-- V-FLOW-18. -/
theorem test_sneReg_does_not_skip : seen 0x9120 (base12 9 9) (fun t => t.pc) = some 0x0202 := by decide
/-- V-ALU-1. -/
theorem test_ldImm : seen 0x6005 base (fun t => (t.reg 0, t.reg 15, t.pc)) = some (0x05, 0x55, 0x0202) := by decide
/-- V-ALU-2. -/
theorem test_ldImm_vf : seen 0x6FAB base (fun t => t.reg 15) = some 0xAB := by decide
/-- V-ALU-4. -/
theorem test_addImm_sets_no_flag : seen 0x7102 (base12 0xFF 0) (fun t => (t.reg 1, t.reg 15)) = some (0x01, 0x55) := by decide
/-- V-ALU-5. -/
theorem test_ldReg : seen 0x8120 (base12 0 0x7E) (fun t => (t.reg 1, t.reg 15)) = some (0x7E, 0x55) := by decide
/-- V-ALU-6. -/
theorem test_orReg : seen 0x8121 (base12 0xF0 0x0F) (fun t => (t.reg 1, t.reg 15)) = some (0xFF, 0x55) := by decide
/-- V-ALU-7. -/
theorem test_andReg : seen 0x8122 (base12 0xF3 0x3C) (fun t => (t.reg 1, t.reg 15)) = some (0x30, 0x55) := by decide
/-- V-ALU-8. -/
theorem test_xorReg : seen 0x8123 (base12 0xFF 0x0F) (fun t => (t.reg 1, t.reg 15)) = some (0xF0, 0x55) := by decide
/-- V-ALU-9. -/
theorem test_addReg_flag_survives : seen 0x8F14 (State.reset.setReg 15 0x10 |>.setReg 1 0x20) (fun t => t.reg 15) = some 0x00 := by decide
/-- V-ALU-14. -/
theorem test_addReg_old_vf_is_addend : seen 0x81F4 (State.reset.setReg 15 0xFF |>.setReg 1 0x01) (fun t => (t.reg 1, t.reg 15)) = some (0x00, 1) := by decide
/-- V-ALU-16. -/
theorem test_subReg_borrows : seen 0x8125 (base12 3 5) (fun t => (t.reg 1, t.reg 15)) = some (0xFE, 0) := by decide
/-- V-ALU-15. -/
theorem test_subReg_equal : seen 0x8125 (base12 5 5) (fun t => (t.reg 1, t.reg 15)) = some (0, 1) := by decide
/-- V-ALU-18. -/
theorem test_subnReg_borrows : seen 0x8127 (base12 5 3) (fun t => (t.reg 1, t.reg 15)) = some (0xFE, 0) := by decide
/-- V-ALU-19. -/
theorem test_subnReg : seen 0x8127 (base12 3 5) (fun t => (t.reg 1, t.reg 15)) = some (2, 1) := by decide
/-- V-ALU-21. -/
theorem test_shr_ignores_y : seen 0x8126 (base12 3 0xFF) (fun t => (t.reg 1, t.reg 15)) = some (1, 1) := by decide
/-- V-ALU-24. -/
theorem test_shr_vf : seen 0x8F06 (State.reset.setReg 15 2) (fun t => t.reg 15) = some 0 := by decide
/-- V-ALU-25. -/
theorem test_shl_ignores_y : seen 0x812E (base12 0x81 0) (fun t => (t.reg 1, t.reg 15)) = some (2, 1) := by decide
/-- V-ALU-27. -/
theorem test_shl_wraps : seen 0x810E (base12 0x80 0) (fun t => (t.reg 1, t.reg 15)) = some (0, 1) := by decide
/-- V-ALU-29: whatever the draw, NN = 0 gives 0. -/
theorem test_rnd_masked : (stepOn 0xC100 base).map (fun t => t.reg 1) = some 0 := by
  have h : stepOn 0xC100 base = some (((base.withFetchWord 16 0xC100).countDraw.setReg 1
      (Config.rand8 0 &&& 0)).advance) := rfl
  rw [h]
  simp [reg_setReg]
/-- V-MEM-1. -/
theorem test_ldI : seen 0xA300 State.reset (fun t => t.i) = some 0x0300 := by decide
/-- V-MEM-4. -/
theorem test_addI_passes_fff : seen 0xF11E (State.reset.setI 0x0FFE |>.setReg 1 2) (fun t => (t.i, t.reg 15)) = some (0x1000, 1) := by decide
/-- V-MEM-7. -/
theorem test_addI_old_vf : seen 0xFF1E (State.reset.setI 0x0300 |>.setReg 15 5) (fun t => (t.i, t.reg 15)) = some (0x0305, 0) := by decide
/-- V-MEM-9. -/
theorem test_ldF_not_masked : seen 0xF129 (base12 0xFF 0) (fun t => t.i) = some 0x04FB := by decide
/-- V-MEM-11. -/
theorem test_ldB_at_top : seen 0xF033 (atIndex 0x0FFD 255) (fun t => (t.readByte 0xFFD, t.readByte 0xFFE, t.readByte 0xFFF, t.i)) = some (some 2, some 5, some 5, 0x0FFD) := by decide
/-- V-MEM-12. -/
theorem test_ldB_faults_whole : seen 0xF033 (atIndex 0x0FFE 9) (fun t => (t.lastError, t.readByte 0xFFE, t.pc)) = some (errorAt200 (.memoryFault .write 0x1000), some 0, 0x200) := by decide
/-- V-MEM-14. -/
theorem test_stRegs : seen 0xF255 (atIndex 0x0303 0x0C |>.setReg 1 5 |>.setReg 2 6) (fun t => (t.readByte 0x303, t.readByte 0x304, t.readByte 0x305, t.i)) = some (some 0x0C, some 5, some 6, 0x0306) := by decide
/-- V-MEM-17. -/
theorem test_stRegs_protected : seen 0xF055 State.reset (fun t => (t.lastError, t.readByte 0)) = some (errorAt200 (.memoryFault .protectedWrite 0), some 0xF0) := by decide
/-- V-MEM-18, with the default font (G4). -/
theorem test_ldRegs_font : seen 0xF465 State.reset (fun t => (t.reg 0, t.reg 1, t.reg 4, t.i)) = some (0xF0, 0x90, 0xF0, 5) := by decide
/-- V-MEM-20. -/
theorem test_ldRegs_faults_whole : seen 0xFF65 (atIndex 0x0FF8 7) (fun t => (t.lastError, t.reg 0, t.i)) = some (errorAt200 (.memoryFault .read 0x1000), 7, 0x0FF8) := by decide
/-- The sprite of V-DSP-3 at I, drawn from (63, 31). -/
def corner : State := (((State.reset.setI 0x20C).putByte 0x20C 0xC0).putByte 0x20D 0x80).setReg 0 63 |>.setReg 1 31 |>.setDirty false

/-- V-DSP-3. -/
theorem test_drw_wraps : seen 0xD012 corner (fun t => ([63, 1984, 2047, 0].map (portFramebuffer t), t.reg 15, t.dirty)) = some ([true, true, true, false], 0, true) := by decide
/-- V-DSP-6. -/
theorem test_drw_no_rows_cannot_fault : seen 0xD010 ((base.setI 0x1234).setDirty false) (fun t => (t.halted, t.reg 15, t.dirty)) = some (false, 0, true) := by decide
/-- V-KEY-1. -/
theorem test_skp_down : seen 0xE19E ((base12 7 0).setKey 7 true) (fun t => t.pc) = some 0x0204 := by decide
/-- V-KEY-5. -/
theorem test_skp_faults : seen 0xE19E (base12 0x10 0) (fun t => (t.halted, t.lastError, t.pc)) = some (true, errorAt200 (.keyIndexFault 0x10), 0x200) := by decide
/-- V-KEY-3. -/
theorem test_sknp_down : seen 0xE1A1 ((base12 7 0).setKey 7 true) (fun t => t.pc) = some 0x0202 := by decide
/-- V-KEY-4. -/
theorem test_sknp_up : seen 0xE1A1 (base12 7 0) (fun t => t.pc) = some 0x0204 := by decide
/-- V-KEY-7. -/
theorem test_ldVxK_waits : stepOn 0xF30A base = some (base.withFetchWord 16 0xF30A) := by decide
/-- V-KEY-8. -/
theorem test_ldVxK_one_key : seen 0xF30A (base.setKey 7 true) (fun t => (t.reg 3, t.pc)) = some (7, 0x0202) := by decide
/-- V-TMR-1. -/
theorem test_ldVxDt : seen 0xF407 (base.setDt 6) (fun t => t.reg 4) = some 6 := by decide
/-- V-TMR-2. -/
theorem test_ldDtVx : seen 0xF315 (base.setReg 3 7) (fun t => (t.dt, t.st)) = some (7, 0) := by decide
/-- V-TMR-3. -/
theorem test_ldStVx : seen 0xF318 (base.setReg 3 7) (fun t => (t.dt, t.st, t.beep)) = some (0, 7, false) := by decide
/-- V-ALU-31. -/
theorem test_unknown_word : seen 0x8128 (base12 1 2) (fun t => (t.lastError, t.pc, t.reg 1, t.reg 15, t.halted)) = some (errorAt200 (.unknownOpcode 0x8128), 0x0202, 1, 0x55, false) := by decide

/-- V-DEC-7: a fetch at 0xFFF faults and PC stays. -/
theorem test_fetch_at_fff : step { State.reset with pc := 0xFFF } =
    .next { State.reset with pc := 0xFFF, halted := true, lastError := some { cause := .memoryFault .fetch 0xFFF, pc := 0xFFF } } := rfl

/-- V-DEC-8. -/
theorem test_halted_step (s : State) : step { s with halted := true } = .next { s with halted := true } := rfl

/-! ## The host's commands -/

/-- V-TMR-6. -/
theorem test_tick_beeps : (((State.reset.setDt 4).setSt 1).hostTick.dt, ((State.reset.setDt 4).setSt 1).hostTick.st,
    reply .tick ((State.reset.setDt 4).setSt 1)) = (3, 0, .beep true) := by decide

/-- V-TMR-7. -/
theorem test_tick_floors : (State.reset.setBeep true).hostTick.beep = false ∧ State.reset.hostTick.st = 0 := by decide

/-- V-HOST-3: LOAD does not clear the rest. -/
theorem test_load_keeps_the_rest : (((State.reset.putByte 0x201 0xBB).putByte 0x202 0xCC).hostLoad [0x11, 0x22]).readByte 0x202 = some 0xCC ∧
    (((State.reset.putByte 0x201 0xBB).putByte 0x202 0xCC).hostLoad [0x11, 0x22]).readByte 0x201 = some 0x22 := by decide

/-- V-HOST-2. -/
theorem test_load_too_large (bytes : List Byte) (h : bytes.length = 3585) :
    State.reset.hostLoad bytes = State.reset.recordError (.romTooLarge 3585) := by
  simp [State.hostLoad, maxProgram, h]

/-- V-HOST-6. -/
theorem test_reset_keeps_keys : ((State.reset.setKey 3 true).enterFatal (.stackOverflow 16)).hostReset =
    State.reset.setKey 3 true := by decide

/-- R230's codes. -/
theorem test_error_codes : (ErrorCause.romTooLarge 0).code = 1 ∧ (ErrorCause.unknownOpcode 0).code = 2 ∧
    (ErrorCause.stackOverflow 0).code = 3 ∧ (ErrorCause.stackUnderflow 0).code = 4 ∧
    (ErrorCause.memoryFault .read 0).code = 5 ∧ (ErrorCause.keyIndexFault 0).code = 6 := by decide

/-! ## Witnesses of the obligations' hypotheses -/

/-- A machine about to run the word `w`, and its two bytes. -/
def about (w : Nat) : State := State.reset.withFetchWord 16 w

theorem witness_EncodeOfDecode : decodeWord 0xD125#16 = .ok (.drw 1 2 5) := by decide

theorem witness_UnrecognisedWordsAreExactlyRejected : Word.recognised 0x0000#16 = false ∧ Word.recognised 0xF065#16 = true := by
  decide

theorem witness_DecodedWordSelectsItsRowAlone :
    decodeWord 0x8FFE#16 = .ok (.shl 15 15) ∧ decodeWord 0x8FFF#16 = .error (.unknownOpcode 0x8FFF#16) ∧
      (Instr.shl 15 15).row ∈ opcodeRows := by decide

theorem witness_InstructionsAreTwoBytesHighFirst :
    decode [0x61, 0x03, 0x80] = .ok (.ldImm 1 3, [0x80]) ∧ (about 0x6103).readByte (about 0x6103).pc.toNat = some 0x61 ∧
      (about 0x6103).readByte ((about 0x6103).pc.toNat + 1) = some 0x03 := by decide

theorem witness_StepRunsTheDecodedInstruction :
    (about 0x6103).halted = false ∧ (about 0x6103).readByte (about 0x6103).pc.toNat = some 0x61 ∧
      (about 0x6103).readByte ((about 0x6103).pc.toNat + 1) = some 0x03 ∧ decode [0x61, 0x03] = .ok (.ldImm 1 3, []) := by decide

theorem witness_UnknownWordIsSkippedAndRecorded :
    (about 0x8128).halted = false ∧ (about 0x8128).readByte (about 0x8128).pc.toNat = some 0x81 ∧
      (about 0x8128).readByte ((about 0x8128).pc.toNat + 1) = some 0x28 ∧ (0x8128#16).toNat = (0x81#8).toNat * 256 + (0x28#8).toNat ∧
      Word.recognised 0x8128#16 = false := by decide

/-- The three clauses, at the last PC that can be fetched from, the first that cannot, and a halted machine. -/
theorem witness_FetchFaultsExactlyAboveMemory :
    (State.reset.setPc 0xFFE).pc.toNat ≤ 0xFFE ∧ 0xFFE < (State.reset.setPc 0xFFF).pc.toNat ∧
      (State.reset.setPc 0xFFF).halted = false ∧ (State.reset.enterFatal (.stackOverflow 16)).halted = true := by decide

theorem witness_FatalStepsArePrecise : ∃ t, step (about 0x00EE) = .next t ∧ (about 0x00EE).halted = false ∧ t.halted = true :=
  ⟨_, rfl, by decide, by decide⟩

/-- Both clauses: FX55 completing and FX55 faulting. -/
theorem witness_PlainInstructionsAdvanceByTwo :
    hasOwnPcRule (.stRegs 0) = false ∧ State.reset.halted = false ∧
      (∃ t, exec (.stRegs 0) (atIndex 0xFFF 7) = .next t ∧ t.halted = false) ∧
      (∃ t, exec (.stRegs 1) (atIndex 0xFFF 7) = .next t ∧ t.halted = true) :=
  ⟨rfl, rfl, ⟨_, rfl, by decide⟩, ⟨_, rfl, by decide⟩⟩

theorem witness_EvenPcStaysEvenWithoutJumps :
    (∃ t, exec (.seImm 0 0) State.reset = .next t) ∧ State.reset.pc.toNat % 2 = 0 ∧ (∀ nnn, Instr.seImm 0 0 ≠ .jp nnn) ∧
      (∀ nnn, Instr.seImm 0 0 ≠ .call nnn) ∧ (∀ nnn, Instr.seImm 0 0 ≠ .jpV0 nnn) ∧ Instr.seImm 0 0 ≠ .ret :=
  ⟨⟨_, rfl⟩, by decide, by simp, by simp, by simp, by simp⟩

/-- Both ways to be at an end of run. -/
theorem witness_EndsOfRunAreFixpoints :
    Running (about 0x1200) ∧ AtSelfJump (about 0x1200) ∧ Running (about 0xF30A) ∧ AtKeyWait (about 0xF30A) :=
  ⟨rfl, ⟨0x1200#16, 0x200#12, by decide, by decide, by decide⟩, rfl, ⟨0xF30A#16, 3, by decide, by decide, by decide⟩⟩

/-- Each of the six skips, with its condition true and false. -/
theorem witness_SkipsAdvanceByFourOrTwo :
    [Instr.seImm 0 0, .seImm 0 1, .sneImm 0 1, .sneImm 0 0, .seReg 0 1 0, .seReg 0 15 9].map (skipCondition · base) =
        [some true, some false, some true, some false, some true, some false] ∧
    [Instr.sneReg 0 15 0, .sneReg 0 1 9, .skp 0, .skp 1, .sknp 1, .sknp 0].map
        (skipCondition · (((State.reset.setReg 1 15).setReg 15 0x55).setKey 0 true)) =
        [some true, some true, some true, some false, some true, some false] ∧
    skipCondition (.sneReg 3 3 0) base = some false := by decide

/-- Clauses SP = 0, and SP at both ends of its range. -/
theorem witness_ReturnPopsOrUnderflows :
    State.reset.sp.val = 0 ∧ 0 < ({ State.reset with sp := 1 } : State).sp.val ∧ 0 < ({ State.reset with sp := 16 } : State).sp.val := by
  decide

/-- Clauses SP = 16, and SP at both ends below it. -/
theorem witness_CallPushesOrOverflows :
    ({ State.reset with sp := 16 } : State).sp.val = 16 ∧ ({ State.reset with sp := 15 } : State).sp.val < 16 ∧ State.reset.sp.val < 16 := by
  decide

theorem witness_ReturnUndoesCall :
    ∃ t, exec (.call 0x20E) { State.reset with sp := 15 } = .next t ∧
      (15 : Fin 16).val = ({ State.reset with sp := 15 } : State).sp.val ∧ t.sp = t.sp ∧ t.stack[15] = t.stack[15] :=
  ⟨_, rfl, by decide, rfl, rfl⟩

theorem witness_RegistersChangeOnlyAsNamed :
    (∃ t, exec (.ldRegs 14) State.reset = .next t) ∧ mayWriteReg (.ldRegs 14) 15 = false ∧ mayWriteReg (.ldRegs 15) 15 = true :=
  ⟨⟨_, rfl⟩, by decide, by decide⟩

/-- Each clause at a boundary: the least and greatest base that completes, the last below the program region, the first too
high, and one above MEM. -/
theorem witness_BcdStoresThreeDigitsOrFaults :
    State.reset.memWf = true ∧ (0x200 ≤ indexBase (atIndex 0x200 0) ∧ indexBase (atIndex 0x200 0) + 2 ≤ 0xFFF) ∧
      (0x200 ≤ indexBase (atIndex 0xFFD 0) ∧ indexBase (atIndex 0xFFD 0) + 2 ≤ 0xFFF) ∧
      indexBase (atIndex 0x1FF 0) < 0x200 ∧ (0x200 ≤ indexBase (atIndex 0xFFE 0) ∧ 0xFFF < indexBase (atIndex 0xFFE 0) + 2) ∧
      (atIndex 0xFFE 0).memWf = true := by decide

theorem witness_StoreRegistersWritesTheRangeOrFaults :
    (atIndex 0xFF0 1).memWf = true ∧ (0x200 ≤ indexBase (atIndex 0xFF0 1) ∧ indexBase (atIndex 0xFF0 1) + (15#4).toNat ≤ 0xFFF) ∧
      indexBase (atIndex 0x1FF 1) < 0x200 ∧
      (0x200 ≤ indexBase (atIndex 0xFF1 1) ∧ 0xFFF < indexBase (atIndex 0xFF1 1) + (15#4).toNat) := by decide

theorem witness_LoadRegistersReadsTheRangeOrFaults :
    indexBase (atIndex 0xFF0 1) + (15#4).toNat ≤ 0xFFF ∧ 0xFFF < indexBase (atIndex 0xFF1 1) + (15#4).toNat := by decide

theorem witness_StoreThenLoadRoundTrips :
    ∃ t, (atIndex 0x300 0xAA).memWf = true ∧ (atIndex 0x300 0xAA).halted = false ∧
      exec (.stRegs 1) (atIndex 0x300 0xAA) = .next t ∧ t.halted = false ∧ (t.setI 0x300).i = (atIndex 0x300 0xAA).i ∧
      ∀ k, k ≤ (1#4).toNat → (t.setI 0x300).readByte (indexBase (atIndex 0x300 0xAA) + k) = t.readByte (indexBase (atIndex 0x300 0xAA) + k) :=
  ⟨_, by decide, rfl, rfl, by decide, rfl, fun _ _ => rfl⟩

theorem witness_StoredWordIsFetched :
    ∃ t, (atIndex 0xFFE 0x12).memWf = true ∧ (atIndex 0xFFE 0x12).halted = false ∧
      exec (.stRegs 1) (atIndex 0xFFE 0x12) = .next t ∧ t.halted = false ∧ (0#4).toNat < (1#4).toNat ∧
      (t.setPc 0xFFE).mem = t.mem ∧ (t.setPc 0xFFE).font = t.font ∧
      (t.setPc 0xFFE).pc.toNat = indexBase (atIndex 0xFFE 0x12) + (0#4).toNat :=
  ⟨_, by decide, rfl, rfl, by decide, by decide, rfl, rfl, by decide⟩

/-- A store that completes, with an address outside it, and a store that halts. -/
theorem witness_StoresTouchOnlyTheirBytes :
    (atIndex 0xFFF 7).memWf = true ∧ (atIndex 0xFFF 7).halted = false ∧
      (∃ t, exec (.stRegs 0) (atIndex 0xFFF 7) = .next t ∧ storesAt (.stRegs 0) (atIndex 0xFFF 7) 0xFFE = false) ∧
      (∃ t, exec (.stRegs 1) (atIndex 0xFFF 7) = .next t ∧ t.halted = true) :=
  ⟨by decide, rfl, ⟨_, rfl, by decide⟩, ⟨_, rfl, by decide⟩⟩

theorem witness_CanonicalMemoriesThatReadAlikeAreEqual :
    (State.reset.putByte 0x300 7).memWf = true ∧ ((State.reset.putByte 0x300 9).putByte 0x300 7).memWf = true ∧
      (State.reset.putByte 0x300 7).font = ((State.reset.putByte 0x300 9).putByte 0x300 7).font ∧
      SameBytes (State.reset.putByte 0x300 7) ((State.reset.putByte 0x300 9).putByte 0x300 7) :=
  ⟨by decide, by decide, rfl, fun _ => rfl⟩

/-- No row at an I outside memory, the last rows of memory, and a pixel covered by wrapping beside one that is not. -/
theorem witness_DrawFlipsTheCoveredPixels :
    spriteInMemory (atIndex 0xFFFF 0) 0 ∧ spriteInMemory (atIndex 0xFF1 0) 15 ∧ spriteInMemory corner 2 ∧
      spriteCovers corner 0 1 2 0 31 ∧ ¬ spriteCovers corner 0 1 2 0 0 :=
  ⟨.inl rfl, .inr (by decide), .inr (by decide), ⟨0, 1, by decide⟩, fun ⟨r, c, hr, hc, hb, hx, hy⟩ => by
    have key : ∀ r, r < 2 → ∀ c, c < 8 → spriteBit corner r c = true → (63 + c) % 64 = 0 → (31 + r) % 32 ≠ 0 := by decide
    exact key r hr c hc hb hx hy⟩

theorem witness_DrawOutsideMemoryFaults : ¬ spriteInMemory (atIndex 0xFF2 0) 15 ∧ ¬ spriteInMemory (atIndex 0x1000 0) 1 := by
  unfold spriteInMemory
  decide

theorem witness_DrawingTwiceRestoresTheFramebuffer :
    ∃ t, spriteInMemory corner 2 ∧ exec (.drw 0 1 2) corner = .next t ∧ t.fb = t.fb ∧ t.i = corner.i ∧ t.reg 0 = corner.reg 0 ∧
      t.reg 1 = corner.reg 1 ∧ ∀ r, r < (2#4).toNat → t.readByte (indexBase corner + r) = corner.readByte (indexBase corner + r) :=
  ⟨_, .inr (by decide), rfl, rfl, rfl, by decide, by decide, fun _ _ => rfl⟩

/-- Each clause: a completed and a faulted draw, a clear, and a dirty machine whose flag is cleared. -/
theorem witness_DirtyIsSetByDrawsAndClearedOnlyByTheHost :
    (∃ t, exec .cls corner = .next t) ∧ corner.halted = false ∧ (∃ t, exec (.drw 0 1 2) corner = .next t ∧ t.halted = false) ∧
      (∃ t, exec (.drw 0 1 2) (corner.setI 0xFFF) = .next t ∧ t.halted = true) ∧
      (∃ t, perform .clearDirty State.reset = .next t ∧ State.reset.dirty = true ∧ t.dirty = false) :=
  ⟨⟨_, rfl⟩, rfl, ⟨_, rfl, by decide⟩, ⟨_, rfl, by decide⟩, ⟨_, rfl, rfl, rfl⟩⟩

theorem witness_KeySkipsFaultAboveFifteen : 15 < ((State.reset.setReg 1 16).reg 1).toNat := by decide

/-- No key down, and the last key alone. -/
theorem witness_AwaitKeyWaitsOrStoresAPressedKey :
    (∀ k, State.reset.keyDown k = false) ∧ ∃ k, (State.reset.setKey 15 true).keyDown k = true := by decide

/-- An instruction that none of the tables names, and one that faults. -/
theorem witness_EachElementHasItsWriters :
    (∃ t, exec (.ldImm 0 0) State.reset = .next t) ∧ mayWriteReg (.ldImm 0 0) 15 = false ∧ mayWriteI (.ldImm 0 0) = false ∧
      mayWriteStack .ret = false ∧ mayWriteSp (.ldImm 0 0) = false ∧ mayStore (.ldImm 0 0) = false ∧
      (atIndex 0x300 0).memWf = true ∧ storesAt (.ldB 0) (atIndex 0x300 0) 0x303 = false ∧
      mayWriteDisplay (.ldImm 0 0) = false ∧ (∀ x, Instr.ldImm 0 0 ≠ .ldDtVx x) ∧ (∀ x, Instr.ldImm 0 0 ≠ .ldStVx x) ∧
      (∀ x nn, Instr.ldImm 0 0 ≠ .rnd x nn) ∧ (∀ x, Instr.ldImm 0 0 ≠ .ldVxK x) ∧
      (∃ t, exec .ret State.reset = .next t ∧ t.halted = true) :=
  ⟨⟨_, rfl⟩, rfl, rfl, rfl, rfl, rfl, rfl, rfl, rfl, by simp, by simp, by simp, by simp, ⟨_, rfl, rfl⟩⟩

theorem witness_PowerOnIsAResetWithKeysUp :
    (∀ k, (about 0x1200).keyDown k = false) ∧ (about 0x1200).font = State.reset.font ∧ (about 0x1200).draws = State.reset.draws :=
  ⟨by decide, rfl, rfl⟩

/-- The empty program and the largest one. -/
theorem witness_LoadPlacesTheProgram :
    State.reset.memWf = true ∧ ([] : List Byte).length ≤ 3584 ∧ (List.replicate 3584 (0x12 : Byte)).length ≤ 3584 := by
  refine ⟨rfl, by simp, ?_⟩
  rw [List.length_replicate]

/-- The smallest program that is too large, and a machine with an instruction ahead. -/
theorem witness_TooLargeProgramLeavesTheState :
    3584 < (List.replicate 3585 (0x12 : Byte)).length ∧ (about 0x6103).halted = false ∧
      fetch (about 0x6103) = .ok 0x6103#16 ∧ decodeWord 0x6103#16 = .ok (.ldImm 1 3) := by
  refine ⟨?_, rfl, by decide, by decide⟩
  rw [List.length_replicate]
  decide

theorem witness_KeysChangeOnlyBySetKey :
    (∃ t, perform (.setKey 3 true) State.reset = .next t) ∧ (∀ p, Command.setKey 3 true ≠ .setKey 4 p) ∧
      (∃ t, perform .tick State.reset = .next t) ∧ ∀ p, Command.tick ≠ .setKey 4 p :=
  ⟨⟨_, rfl⟩, by simp, ⟨_, rfl⟩, by simp⟩

theorem witness_OnlyResetClearsHaltAndError :
    (∃ t, perform .step (State.reset.enterFatal (.stackOverflow 16)) = .next t) ∧ Command.step ≠ .reset ∧
      (State.reset.enterFatal (.stackOverflow 16)).halted = true ∧ (State.reset.enterFatal (.stackOverflow 16)).lastError ≠ none :=
  ⟨⟨_, rfl⟩, by decide, rfl, by decide⟩

/-- Each of the five outcomes is returned somewhere. -/
theorem witness_StepReplyTellsWhatHappened :
    (∃ t, step (about 0x6103) = .next t) ∧ stepReply (about 0x6103) = .ok ∧ stepReply (about 0xF30A) = .waiting ∧
      stepReply (about 0x8128) = .unknown ∧ stepReply (about 0x00EE) = .fatal ∧
      stepReply (State.reset.enterFatal (.stackOverflow 16)) = .haltedNoop :=
  ⟨⟨_, rfl⟩, by decide, by decide, by decide, by decide, by decide⟩

/-- A state that meets the invariant and is not the reset state: one byte stored, and halted. -/
theorem witness_StepKeepsTheInvariant :
    Inv ((atIndex 0x300 7).putByte 0x300 7 |>.enterFatal (.stackOverflow 16)) ∧
      ∃ t, step ((atIndex 0x300 7).putByte 0x300 7 |>.enterFatal (.stackOverflow 16)) = .next t :=
  ⟨⟨by decide, by unfold lowCellsUntouched; decide, fun _ => ⟨_, rfl⟩, fun _ _ _ => rfl⟩, ⟨_, rfl⟩⟩

theorem witness_EverySchedulePreservesTheInvariant : Inv State.reset :=
  ⟨rfl, fun _ h => absurd h List.not_mem_nil, fun h => absurd h (by decide), fun _ h => absurd h (by simp [State.reset])⟩

theorem witness_LowMemoryIsReadOnly :
    State.reset.memWf = true ∧ Command.reset ∉ [Command.load [0x60, 0x05], .step, .tick] ∧
      (∃ t, runCommands [.load [0x60, 0x05], .step, .tick] State.reset = .next t) ∧ 0x1FF < 0x200 :=
  ⟨rfl, by decide, ⟨_, rfl⟩, by decide⟩

/-- A STEP that pushes and one that pops. -/
theorem witness_StepMovesTheStackByOneEntry :
    (∃ t, step (about 0x220E) = .next t ∧ t.sp.val = 1) ∧ (∃ t, step { about 0x00EE with sp := 16 } = .next t ∧ t.sp.val = 15) :=
  ⟨⟨_, rfl, rfl⟩, ⟨_, rfl, rfl⟩⟩

theorem witness_HostMovesTouchNoRegister :
    Command.load [0x60, 0x05] ≠ .step ∧ Command.load [0x60, 0x05] ≠ .reset ∧
      ∃ t, perform (.load [0x60, 0x05]) State.reset = .next t := ⟨by decide, by decide, ⟨_, rfl⟩⟩

end Sys2Proof.Tests
end

section
/-! SUPPORT. What FX55 and FX65 answer (R154, R155, R238), for the statements of the memory family: the word each encodes to,
what a range access answers inside and outside its region, and the register range a load fills. -/

namespace Sys2Proof.Safety

open Sys2Proof.Machine

/-! ### Words -/

/-- An instruction that the decoder reads back from its word is encoded as its own row of R64's table says. -/
theorem encodedAs_of_decodeWord {i : Instr} (hsel : Laws.Encoding.Statement i) (hdec : decodeWord (encode i) = .ok i) :
    EncodedAs i i.row.pattern i.row.mask (encode i) :=
  ⟨rfl, rfl, hdec, beq_iff_eq.1 hsel⟩

theorem decodeWord_encode_stRegs (x : Nibble) : decodeWord (encode (.stRegs x)) = .ok (.stRegs x) := by
  revert x; decide

theorem decodeWord_encode_ldRegs (x : Nibble) : decodeWord (encode (.ldRegs x)) = .ok (.ldRegs x) := by
  revert x; decide

/-! ### Faults -/

/-- R238: taking a fatal fault is answering the state `fatalState` describes. -/
theorem takeFault_eq (s : State) (e : ErrorCause) : takeFault s e = .next (fatalState s e) := rfl

end Sys2Proof.Safety

namespace Sys2Proof.Machine

open Sys2Proof.Safety

/-! ### The range of registers and the addresses after it -/

theorem rangeLength_le (x : Nibble) : rangeLength x ≤ 16 := x.isLt

theorem firstRegs_rangeLength_ne_nil (s : State) (x : Nibble) : s.firstRegs (rangeLength x) ≠ [] :=
  List.ne_nil_of_length_eq_add_one (firstRegs_length s (rangeLength x))

theorem firstRegs_getElem?_toNat {s : State} {n : Nat} {k : Nibble} (h : k.toNat < n) :
    (s.firstRegs n)[k.toNat]? = some (s.reg k) := by
  rw [firstRegs_getElem? s n k.toNat h, BitVec.ofNat_toNat, BitVec.setWidth_eq]

theorem indexAfterRange_toNat (s : State) (x : Nibble) :
    (indexAfterRange s x).toNat = (indexBase s + x.toNat + 1) % 65536 := by
  have hx := x.isLt
  simp only [indexAfterRange, indexBase, BitVec.toNat_add, BitVec.toNat_setWidth, BitVec.ofNat_eq_ofNat,
    BitVec.toNat_ofNat]
  omega

theorem pc_add_two_toNat (s : State) : (s.pc + 2).toNat = (s.pc.toNat + 2) % 65536 :=
  BitVec.toNat_add s.pc 2

/-! ### What consecutive writes leave unchanged -/

@[simp] theorem putBytes_pc (s : State) (a : Nat) (bs : List Byte) : (s.putBytes a bs).pc = s.pc := by
  rw [putBytes_eq]

@[simp] theorem setRegs_pc (s : State) (k : Nat) (bs : List Byte) : (s.setRegs k bs).pc = s.pc := by
  rw [setRegs_eq]

@[simp] theorem setRegs_readByte (s : State) (k : Nat) (bs : List Byte) (a : Nat) :
    (s.setRegs k bs).readByte a = s.readByte a := by
  rw [setRegs_eq]
  rfl

/-- Registers loaded from V0 on: each holds its byte of the list. -/
theorem reg_setRegs_zero_inside {s : State} {bs : List Byte} {k : Nibble} (hlen : bs.length ≤ 16) (hk : k.toNat < bs.length) :
    some ((s.setRegs 0 bs).reg k) = bs[k.toNat]? := by
  rw [reg_setRegs s 0 bs (by omega), if_pos (by omega), Nat.sub_zero, List.getD_eq_getElem _ _ hk, List.getElem?_eq_getElem hk]

/-- Registers loaded from V0 on: those past the list keep their value. -/
theorem reg_setRegs_zero_outside {s : State} {bs : List Byte} {k : Nibble} (hlen : bs.length ≤ 16) (hk : bs.length ≤ k.toNat) :
    (s.setRegs 0 bs).reg k = s.reg k := by
  rw [reg_setRegs s 0 bs (by omega), if_neg (by omega)]

/-! ### Range accesses, one law per outcome (R43, R44, R153 to R155, R171) -/

theorem memWriteRange_inside {s : State} {a : Nat} {bs : List Byte} (hlo : 0x200 ≤ a) (hhi : a + bs.length ≤ 0x1000) :
    memWriteRange s a bs = .ok (s.putBytes a bs) := by
  rw [memWriteRange_eq]
  by_cases hbs : bs = []
  · subst hbs; rfl
  · rw [if_neg hbs, if_neg (by omega), if_neg (by omega)]

theorem memWriteRange_protected {s : State} {a : Nat} {bs : List Byte} (hbs : bs ≠ []) (hlo : a < 0x200) :
    memWriteRange s a bs = .error (.memoryFault .protectedWrite a) := by
  rw [memWriteRange_eq, if_neg hbs, if_pos hlo]

theorem memWriteRange_outside {s : State} {a : Nat} {bs : List Byte} (hbs : bs ≠ []) (hlo : 0x200 ≤ a)
    (hhi : 0x1000 < a + bs.length) : memWriteRange s a bs = .error (.memoryFault .write (max a 0x1000)) := by
  rw [memWriteRange_eq, if_neg hbs, if_neg (by omega), if_pos hhi]

/-- A read range inside `MEM` answers its bytes, in address order. -/
theorem memReadRange_inside {s : State} {a n : Nat} (h : a + n ≤ 0x1000) :
    ∃ bs, memReadRange s a n = .ok bs ∧ bs.length = n ∧ ∀ k, k < n → bs[k]? = s.readByte (a + k) := by
  refine ⟨_, (memReadRange_eq s a n).trans (if_pos (.inr h)), by simp, fun k hk => ?_⟩
  obtain ⟨b, hb⟩ := readByte_isSome (s := s) (show a + k < 4096 by omega)
  simp [hk, hb]

theorem memReadRange_outside {s : State} {a n : Nat} (hn : n ≠ 0) (h : 0x1000 < a + n) :
    memReadRange s a n = .error (.memoryFault .read (max a 0x1000)) := by
  rw [memReadRange_eq, if_neg (by omega)]

/-! ### FX55 (R154) -/

/-- The state FX55 answers when its range can be written. -/
def State.afterStRegs (s : State) (x : Nibble) : State :=
  ((s.putBytes (indexBase s) (s.firstRegs (rangeLength x))).setI (indexAfterRange s x)).advance

theorem exec_stRegs_inside {s : State} {x : Nibble} (hlo : 0x200 ≤ indexBase s) (hhi : indexBase s + x.toNat ≤ 0xFFF) :
    exec (.stRegs x) s = .next (s.afterStRegs x) := by
  have hrange : indexBase s + (s.firstRegs (rangeLength x)).length ≤ 0x1000 := by
    rw [firstRegs_length, rangeLength]; omega
  simp only [exec, execStRegs, memWriteRange_inside hlo hrange, State.afterStRegs]

theorem exec_stRegs_protected {s : State} {x : Nibble} (hlo : indexBase s < 0x200) :
    exec (.stRegs x) s = .next (fatalState s (.memoryFault .protectedWrite (indexBase s))) := by
  simp only [exec, execStRegs, memWriteRange_protected (firstRegs_rangeLength_ne_nil s x) hlo, takeFault_eq]

theorem exec_stRegs_outside {s : State} {x : Nibble} (hlo : 0x200 ≤ indexBase s) (hhi : 0xFFF < indexBase s + x.toNat) :
    exec (.stRegs x) s = .next (fatalState s (.memoryFault .write (max (indexBase s) 0x1000))) := by
  have hrange : 0x1000 < indexBase s + (s.firstRegs (rangeLength x)).length := by
    rw [firstRegs_length, rangeLength]; omega
  simp only [exec, execStRegs, memWriteRange_outside (firstRegs_rangeLength_ne_nil s x) hlo hrange, takeFault_eq]

/-- FX55 changes memory, I and PC and nothing else. -/
theorem afterStRegs_frame (s : State) (x : Nibble) :
    s.afterStRegs x = { s with mem := (s.afterStRegs x).mem, i := (s.afterStRegs x).i, pc := (s.afterStRegs x).pc } := by
  rw [State.afterStRegs, putBytes_eq]
  rfl

section
variable {s : State} {x : Nibble} (hwf : s.memWf = true) (hhi : indexBase s + x.toNat ≤ 0xFFF)
include hwf hhi

theorem readByte_afterStRegs_inside {k : Nibble} (hk : k.toNat ≤ x.toNat) :
    (s.afterStRegs x).readByte (indexBase s + k.toNat) = some (s.reg k) := by
  have hlen : (s.firstRegs (rangeLength x)).length = x.toNat + 1 := firstRegs_length s _
  rw [State.afterStRegs, advance_readByte, setI_readByte, readByte_putBytes_inside hwf (by omega) (by omega),
    firstRegs_getElem?_toNat (n := rangeLength x) (Nat.lt_succ_of_le hk)]

theorem readByte_afterStRegs_outside {a : Nat} (ha : a < indexBase s ∨ indexBase s + x.toNat < a) :
    (s.afterStRegs x).readByte a = s.readByte a := by
  have hlen : (s.firstRegs (rangeLength x)).length = x.toNat + 1 := firstRegs_length s _
  rw [State.afterStRegs, advance_readByte, setI_readByte, readByte_putBytes_outside hwf (by omega) (by omega)]

end

/-! ### FX65 (R155) -/

/-- The state FX65 answers when its range reads as `bs`. -/
def State.afterLdRegs (s : State) (x : Nibble) (bs : List Byte) : State :=
  ((s.setRegs 0 bs).setI (indexAfterRange s x)).advance

theorem exec_ldRegs_inside {s : State} {x : Nibble} (hhi : indexBase s + x.toNat ≤ 0xFFF) :
    ∃ bs, exec (.ldRegs x) s = .next (s.afterLdRegs x bs) ∧ bs.length = rangeLength x ∧
      ∀ k, k < rangeLength x → bs[k]? = s.readByte (indexBase s + k) := by
  have hrange : indexBase s + rangeLength x ≤ 0x1000 := by rw [rangeLength]; omega
  obtain ⟨bs, hread, hlen, hbytes⟩ := memReadRange_inside (s := s) hrange
  exact ⟨bs, by simp only [exec, execLdRegs, hread, State.afterLdRegs], hlen, hbytes⟩

theorem exec_ldRegs_outside {s : State} {x : Nibble} (hhi : 0xFFF < indexBase s + x.toNat) :
    exec (.ldRegs x) s = .next (fatalState s (.memoryFault .read (max (indexBase s) 0x1000))) := by
  have hrange : 0x1000 < indexBase s + rangeLength x := by rw [rangeLength]; omega
  have hread := memReadRange_outside (s := s) (n := rangeLength x) (Nat.succ_ne_zero _) hrange
  simp only [exec, execLdRegs, hread, takeFault_eq]

/-- FX65 changes the V registers, I and PC and nothing else. -/
theorem afterLdRegs_frame (s : State) (x : Nibble) (bs : List Byte) :
    s.afterLdRegs x bs =
      { s with v := (s.afterLdRegs x bs).v, i := (s.afterLdRegs x bs).i, pc := (s.afterLdRegs x bs).pc } := by
  rw [State.afterLdRegs, setRegs_eq]
  rfl

end Sys2Proof.Machine

/-! ### The obligations -/

open Sys2Proof Sys2Proof.Machine Sys2Proof.Safety

/-- Settles O30: the range is written whole, or the write faults at its first offending address. -/
theorem storeRegistersWritesTheRangeOrFaults : Obligations.StoreRegistersWritesTheRangeOrFaults := by
  intro s x hwf
  refine ⟨encodedAs_of_decodeWord (Laws.Encoding.stRegs x) (decodeWord_encode_stRegs x), fun hlo hhi => ?_,
    exec_stRegs_protected, exec_stRegs_outside⟩
  exact ⟨s.afterStRegs x, exec_stRegs_inside hlo hhi, fun _ => readByte_afterStRegs_inside hwf hhi,
    fun _ => readByte_afterStRegs_outside hwf hhi, indexAfterRange_toNat s x,
    by rw [State.afterStRegs, advance_pc, setI_pc, putBytes_pc, pc_add_two_toNat], afterStRegs_frame s x⟩

/-- Settles O31: the range is read whole and loaded from V0 on, or the read faults at its first offending address. -/
theorem loadRegistersReadsTheRangeOrFaults : Obligations.LoadRegistersReadsTheRangeOrFaults := by
  intro s x
  refine ⟨encodedAs_of_decodeWord (Laws.Encoding.ldRegs x) (decodeWord_encode_ldRegs x), fun hhi => ?_, exec_ldRegs_outside⟩
  obtain ⟨bs, hexec, hlen, hbytes⟩ := exec_ldRegs_inside hhi
  have h16 : bs.length ≤ 16 := hlen ▸ rangeLength_le x
  have hx : bs.length = x.toNat + 1 := hlen
  refine ⟨s.afterLdRegs x bs, hexec, fun k hk => ?_, fun k hk => ?_, indexAfterRange_toNat s x,
    by rw [State.afterLdRegs, advance_pc, setI_pc, setRegs_pc, pc_add_two_toNat], fun a => ?_, afterLdRegs_frame s x bs⟩
  · rw [State.afterLdRegs, advance_reg, setI_reg, reg_setRegs_zero_inside h16 (by omega), hbytes k.toNat (by omega)]
  · rw [State.afterLdRegs, advance_reg, setI_reg, reg_setRegs_zero_outside h16 (by omega)]
  · rw [State.afterLdRegs, advance_readByte, setI_readByte, setRegs_readByte]
end

section
/-! SUPPORT. Reading bytes as an instruction (R45, R60, R74): the word two bytes make, the words an encoding gives back, and the
byte lists the decoder accepts. -/

namespace Sys2Proof

/-! ### A word put together again from its fields, one lemma per format of R62 -/

theorem formatNNN_fields {w : Word} {p : Word} {op : Nibble} (hop : fieldOp w = op) (hp : op.setWidth 16 <<< 12 = p) :
    formatNNN p (fieldNNN w) = w := by
  subst hop hp
  refine BitVec.eq_of_getLsbD_eq fun k hk => ?_
  interval_cases k <;> simp [formatNNN, fieldOp, fieldNNN]

theorem formatXNN_fields {w : Word} {p : Word} {op : Nibble} (hop : fieldOp w = op) (hp : op.setWidth 16 <<< 12 = p) :
    formatXNN p (fieldX w) (fieldNN w) = w := by
  subst hop hp
  refine BitVec.eq_of_getLsbD_eq fun k hk => ?_
  interval_cases k <;> simp [formatXNN, fieldOp, fieldX, fieldNN]

theorem formatXYN_fields {w : Word} {p : Word} {op : Nibble} (hop : fieldOp w = op) (hp : op.setWidth 16 <<< 12 = p) :
    formatXYN p (fieldX w) (fieldY w) (fieldN w) = w := by
  subst hop hp
  refine BitVec.eq_of_getLsbD_eq fun k hk => ?_
  interval_cases k <;> simp [formatXYN, fieldOp, fieldX, fieldY, fieldN]

/-- Format XYN of family 8: the low nibble is the pattern's own (R66). -/
theorem formatXYN_zero_fields {w : Word} {p : Word} {op n : Nibble} (hop : fieldOp w = op) (hn : fieldN w = n)
    (hp : op.setWidth 16 <<< 12 ||| n.setWidth 16 = p) : formatXYN p (fieldX w) (fieldY w) 0 = w := by
  subst hop hn hp
  refine BitVec.eq_of_getLsbD_eq fun k hk => ?_
  interval_cases k <;> simp [formatXYN, fieldOp, fieldX, fieldY, fieldN]

/-- Format XFN: the low byte is the pattern's own (R67, R68). -/
theorem formatXFN_fields {w : Word} {p : Word} {op : Nibble} {nn : Byte} (hop : fieldOp w = op) (hnn : fieldNN w = nn)
    (hp : op.setWidth 16 <<< 12 ||| nn.setWidth 16 = p) : formatXFN p (fieldX w) = w := by
  subst hop hnn hp
  refine BitVec.eq_of_getLsbD_eq fun k hk => ?_
  interval_cases k <;> simp [formatXFN, fieldOp, fieldX, fieldNN]

/-! ### The word a decoded instruction came from, family by family (R64) -/

section
variable {w : Word} {i : Instr}

theorem encode_of_decodeFamily0 (h : decodeFamily0 w = some i) : encode i = w := by
  unfold decodeFamily0 at h
  split at h <;> cases h <;> rfl

theorem encode_of_decodeFamily8 (hop : fieldOp w = 0x8#4) (h : decodeFamily8 w = some i) : encode i = w := by
  unfold decodeFamily8 at h
  split at h <;> cases h <;> exact formatXYN_zero_fields hop ‹fieldN w = _› rfl

theorem encode_of_decodeFamilyE (hop : fieldOp w = 0xE#4) (h : decodeFamilyE w = some i) : encode i = w := by
  unfold decodeFamilyE at h
  split at h <;> cases h <;> exact formatXFN_fields hop ‹fieldNN w = _› rfl

theorem encode_of_decodeFamilyF (hop : fieldOp w = 0xF#4) (h : decodeFamilyF w = some i) : encode i = w := by
  unfold decodeFamilyF at h
  split at h <;> cases h <;> exact formatXFN_fields hop ‹fieldNN w = _› rfl

theorem encode_of_decodeFamily (h : decodeFamily w = some i) : encode i = w := by
  unfold decodeFamily at h
  split at h
  case h_1 => exact encode_of_decodeFamily0 h
  case h_9 hop => exact encode_of_decodeFamily8 hop h
  case h_15 hop => exact encode_of_decodeFamilyE hop h
  case h_16 hop => exact encode_of_decodeFamilyF hop h
  case h_2 hop | h_3 hop | h_11 hop | h_12 hop => cases h; exact formatNNN_fields hop rfl
  case h_4 hop | h_5 hop | h_7 hop | h_8 hop | h_13 hop => cases h; exact formatXNN_fields hop rfl
  case h_6 hop | h_10 hop | h_14 hop => cases h; exact formatXYN_fields hop rfl
  case h_17 => cases h

theorem decodeWord_eq_ok_iff : decodeWord w = .ok i ↔ decodeFamily w = some i := by
  cases hd : decodeFamily w <;> simp [decodeWord, hd]

/-- R74: an instruction is encoded as the word it was decoded from. -/
theorem encode_of_decodeWord (h : decodeWord w = .ok i) : encode i = w :=
  encode_of_decodeFamily (decodeWord_eq_ok_iff.1 h)

end

/-! ### Bytes -/

theorem wordOfBytes_toNat (hi lo : Byte) : (wordOfBytes hi lo).toNat = hi.toNat * 256 + lo.toNat := by
  rw [wordOfBytes, BitVec.toNat_append, ← Nat.shiftLeft_add_eq_or_of_lt lo.isLt, Nat.shiftLeft_eq]

theorem decode_cons_cons_eq_ok_iff {hi lo : Byte} {tail rest : List Byte} {i : Instr} :
    decode (hi :: lo :: tail) = .ok (i, rest) ↔ decodeWord (wordOfBytes hi lo) = .ok i ∧ tail = rest := by
  cases hd : decodeWord (wordOfBytes hi lo) <;> simp [decode, hd]

/-- R60: the byte lists that hold an instruction are those whose first two bytes, high byte first, make its word. -/
theorem decode_eq_ok_iff {bytes rest : List Byte} {i : Instr} :
    decode bytes = .ok (i, rest) ↔ ∃ hi lo, bytes = hi :: lo :: rest ∧ decodeWord (wordOfBytes hi lo) = .ok i := by
  constructor
  · intro h
    match bytes with
    | [] | [_] => cases h
    | hi :: lo :: tail =>
      obtain ⟨hword, rfl⟩ := decode_cons_cons_eq_ok_iff.1 h
      exact ⟨hi, lo, rfl, hword⟩
  · rintro ⟨hi, lo, rfl, hword⟩
    exact decode_cons_cons_eq_ok_iff.2 ⟨hword, rfl⟩

end Sys2Proof

namespace Sys2Proof.Machine

/-- R45: two readable cells at PC are fetched as the word they make. -/
theorem fetch_of_readByte {s : State} {hi lo : Byte} (hhi : s.readByte s.pc.toNat = some hi)
    (hlo : s.readByte (s.pc.toNat + 1) = some lo) : fetch s = .ok (wordOfBytes hi lo) := by
  simp only [fetch, hhi, hlo]

end Sys2Proof.Machine

open Sys2Proof Sys2Proof.Machine

/-- Settles O6: the decoder accepts only a high byte, a low byte and a rest, the word of the two bytes is the one their
instruction encodes to, and it is the word a fetch makes of the same bytes at PC and PC + 1. -/
theorem instructionsAreTwoBytesHighFirst : Obligations.InstructionsAreTwoBytesHighFirst := by
  constructor
  · intro bytes rest i h
    obtain ⟨hi, lo, hbytes, hword⟩ := decode_eq_ok_iff.1 h
    exact ⟨hi, lo, hbytes, by rw [encode_of_decodeWord hword, wordOfBytes_toNat]⟩
  · intro s hi lo hhi hlo
    exact ⟨wordOfBytes hi lo, fetch_of_readByte hhi hlo, wordOfBytes_toNat hi lo, fun i rest =>
      decode_cons_cons_eq_ok_iff.trans (and_iff_left rfl)⟩
end

section
/-! SUPPORT. The six skips (R85, R104 to R107, R190, R191): where the skip condition is defined, the instruction is `skipIf` of it. -/

namespace Sys2Proof.Machine

open Sys2Proof.Safety

/-! ### The key a register names (R190, R191) -/

theorem keyOf_eq_some_setWidth {b : Byte} (h : b.toNat < 16) : keyOf b = some (b.setWidth 4) :=
  if_pos (Nat.le_of_lt_succ h)

theorem keyDown_setWidth (s : State) {b : Byte} (h : b.toNat < 16) : s.keyDown (b.setWidth 4) = s.key[b.toNat] := by
  simp only [State.keyDown, BitVec.toNat_setWidth, Nat.mod_eq_of_lt h]

theorem exec_skp_of_lt {s : State} {x : Nibble} (h : (s.reg x).toNat < 16) :
    exec (.skp x) s = .next (s.skipIf s.key[(s.reg x).toNat]) := by
  simp only [exec, execSkp, keyOf_eq_some_setWidth h, keyDown_setWidth s h]

theorem exec_sknp_of_lt {s : State} {x : Nibble} (h : (s.reg x).toNat < 16) :
    exec (.sknp x) s = .next (s.skipIf !s.key[(s.reg x).toNat]) := by
  simp only [exec, execSknp, keyOf_eq_some_setWidth h, keyDown_setWidth s h]

/-! ### Every skip is `skipIf` of its condition -/

/-- R85: a skip whose condition is defined does nothing but move PC by that condition. -/
theorem exec_eq_skipIf_of_skipCondition {i : Instr} {s : State} {c : Bool} (h : skipCondition i s = some c) :
    exec i s = .next (s.skipIf c) := by
  cases i with
  | seImm x nn => cases h; rfl
  | sneImm x nn => cases h; rw [decide_not]; rfl
  | seReg x y n => cases h; rfl
  | sneReg x y n => cases h; rw [decide_not]; rfl
  | skp x =>
    obtain ⟨hx, hc⟩ := Option.dite_none_right_eq_some.1 h
    cases hc
    exact exec_skp_of_lt hx
  | sknp x =>
    obtain ⟨hx, hc⟩ := Option.dite_none_right_eq_some.1 h
    cases hc
    exact exec_sknp_of_lt hx
  | _ => cases h

theorem skipIf_pc_toNat (s : State) (c : Bool) :
    (s.skipIf c).pc.toNat = (s.pc.toNat + if c then 4 else 2) % 65536 := by
  cases c <;> exact BitVec.toNat_add s.pc _

end Sys2Proof.Machine

open Sys2Proof Sys2Proof.Machine

/-- Settles O15: a skip answers `skipIf` of its condition, which writes PC alone. -/
theorem skipsAdvanceByFourOrTwo : Obligations.SkipsAdvanceByFourOrTwo := by
  intro i s c h
  exact ⟨s.skipIf c, exec_eq_skipIf_of_skipCondition h, skipIf_pc_toNat s c, skipIf_readByte s c, rfl⟩
end

section
/-! SUPPORT. Return and call (R100, R102): the word a call encodes to, the two outcomes of each stack operation, and what the
instruction answers on each. -/

namespace Sys2Proof

/-- R69, R74: the word of 2NNN is read back; the operand lies in the field the pattern leaves 0. -/
theorem decodeWord_encode_call (nnn : BitVec 12) : decodeWord (encode (.call nnn)) = .ok (.call nnn) := by
  have hop : fieldOp (formatNNN 0x2000#16 nnn) = 0x2#4 := fieldOp_formatNNN _ nnn
  have hnnn : fieldNNN (formatNNN 0x2000#16 nnn) = nnn := (fieldNNN_formatNNN _ nnn).trans BitVec.zero_or
  simp only [encode, Instr.row, decodeWord, decodeFamily, hop, hnnn]

end Sys2Proof

namespace Sys2Proof.Machine

open Sys2Proof.Safety

theorem absolute_toNat (nnn : BitVec 12) : (absolute nnn).toNat = nnn.toNat :=
  BitVec.toNat_setWidth_of_le (by decide)

section
variable {s t : State} {w : Word}

/-! ### When the stack has an entry, and when it has room -/

theorem pop_of_pos (h : 0 < s.sp.val) : ∃ t, s.pop = some (s.stack[s.sp.val - 1], t) :=
  ⟨_, dif_pos h⟩

theorem push_of_lt (w : Word) (h : s.sp.val < 16) : ∃ t, s.push w = some t :=
  Option.ne_none_iff_exists'.1 fun hnone => h.ne (push_eq_none.1 hnone)

/-! ### The stack is no part of memory -/

theorem readByte_of_pop (h : s.pop = some (w, t)) (a : Nat) : t.readByte a = s.readByte a := by
  obtain ⟨-, -, ht, -⟩ := pop_eq_some h
  rw [ht]
  rfl

theorem readByte_of_push (h : s.push w = some t) (a : Nat) : t.readByte a = s.readByte a := by
  obtain ⟨-, -, ht, -⟩ := push_eq_some h
  rw [ht]
  rfl

/-! ### 00EE (R100) -/

theorem exec_ret_of_pop (h : s.pop = some (w, t)) : exec .ret s = .next (t.setPc (w + 2)) := by
  simp only [exec, execRet, h]

theorem exec_ret_underflow (h : s.sp.val = 0) : exec .ret s = .next (fatalState s (.stackUnderflow 0)) := by
  simp only [exec, execRet, pop_eq_none.2 h, takeFault_eq, h]

/-! ### 2NNN (R102) -/

theorem exec_call_of_push (nnn : BitVec 12) (h : s.push s.pc = some t) :
    exec (.call nnn) s = .next (t.setPc (absolute nnn)) := by
  simp only [exec, execCall, h]

theorem exec_call_overflow (nnn : BitVec 12) (h : s.sp.val = 16) :
    exec (.call nnn) s = .next (fatalState s (.stackOverflow 16)) := by
  simp only [exec, execCall, push_eq_none.2 h, takeFault_eq, h]

end

end Sys2Proof.Machine

open Sys2Proof Sys2Proof.Machine Sys2Proof.Safety

/-- Settles O16: with an entry in use the return is a pop and a jump past the popped call; with none it faults. -/
theorem returnPopsOrUnderflows : Obligations.ReturnPopsOrUnderflows := by
  refine ⟨encodedAs_of_decodeWord Laws.Encoding.ret (by decide), fun s => ⟨exec_ret_underflow, fun hpos => ?_⟩⟩
  obtain ⟨t, hpop⟩ := pop_of_pos hpos
  obtain ⟨-, hsp, ht, -⟩ := pop_eq_some hpop
  exact ⟨t.setPc (s.stack[s.sp.val - 1] + 2), exec_ret_of_pop hpop, Nat.eq_sub_of_add_eq hsp, BitVec.toNat_add _ 2,
    fun a => readByte_of_pop hpop a, congrArg (State.setPc · _) ht⟩

/-- Settles O17: with room on the stack the call is a push of PC and a jump to NNN; with none it faults. -/
theorem callPushesOrOverflows : Obligations.CallPushesOrOverflows := by
  intro s nnn
  refine ⟨encodedAs_of_decodeWord (Laws.Encoding.call nnn) (decodeWord_encode_call nnn), exec_call_overflow nnn,
    fun hlt => ?_⟩
  obtain ⟨t, hpush⟩ := push_of_lt s.pc hlt
  obtain ⟨-, hsp, ht, hstack⟩ := push_eq_some hpush
  exact ⟨t.setPc (absolute nnn), exec_call_of_push nnn hpush, hstack, hsp, absolute_toNat nnn,
    fun a => readByte_of_push hpush a, congrArg (State.setPc · _) ht⟩
end

section
/-! SUPPORT. Loads of a register and flagged arithmetic (R120, R126, R133): the words 6XNN and 8XY4 are read back, and what the
two register-writing forms `writeReg` and `writeFlagged` answer, whatever they write. -/

namespace Sys2Proof

/-! ### Words -/

/-- R61, R74: the word of 6XNN is read back; its operands lie in the fields the pattern leaves 0. -/
theorem decodeWord_encode_ldImm (x : Nibble) (nn : Byte) : decodeWord (encode (.ldImm x nn)) = .ok (.ldImm x nn) := by
  have hop : fieldOp (formatXNN 0x6000#16 x nn) = 0x6#4 := fieldOp_formatXNN _ x nn
  have hx : fieldX (formatXNN 0x6000#16 x nn) = x := (fieldX_formatXNN _ x nn).trans BitVec.zero_or
  have hnn : fieldNN (formatXNN 0x6000#16 x nn) = nn := (fieldNN_formatXNN _ x nn).trans BitVec.zero_or
  simp only [encode, Instr.row, decodeWord, decodeFamily, hop, hx, hnn]

/-- R66, R74: the word of 8XY4 is read back; the low nibble is the pattern's own and selects the addition. -/
theorem decodeWord_encode_addReg (x y : Nibble) : decodeWord (encode (.addReg x y)) = .ok (.addReg x y) := by
  have hop : fieldOp (formatXYN 0x8004#16 x y 0) = 0x8#4 := fieldOp_formatXYN _ x y 0
  have hx : fieldX (formatXYN 0x8004#16 x y 0) = x := (fieldX_formatXYN _ x y 0).trans BitVec.zero_or
  have hy : fieldY (formatXYN 0x8004#16 x y 0) = y := (fieldY_formatXYN _ x y 0).trans BitVec.zero_or
  have hn : fieldN (formatXYN 0x8004#16 x y 0) = 0x4#4 := fieldN_formatXYN _ x y 0
  simp only [encode, Instr.row, decodeWord, decodeFamily, decodeFamily8, hop, hx, hy, hn]

/-- R74: in family 8 format XYN adds no low nibble to the pattern. -/
theorem formatXYN_zero (p : Word) (x y : Nibble) :
    formatXYN p x y 0 = p ||| (x.setWidth 16 <<< 8) ||| (y.setWidth 16 <<< 4) := BitVec.or_zero

end Sys2Proof

namespace Sys2Proof.Machine

open Sys2Proof.Safety

/-! ### The two forms that write V[X] -/

/-- R84: `writeReg` completes, with the byte in V[X] and the advance as its whole effect. -/
theorem completes_writeReg (s : State) (x : Nibble) (b : Byte) : Completes (writeReg x b s) (WritesRegister s x b) := by
  refine ⟨(s.setReg x b).advance, rfl, ?_, fun k hk => ?_, pc_add_two_toNat s, fun _ => rfl, rfl⟩
  · rw [advance_reg, reg_setReg, if_pos rfl]
  · rw [advance_reg, reg_setReg, if_neg (List.ne_of_not_mem_cons hk)]

/-- R84, R133: `writeFlagged` completes, with the flag in VF even when X is 15, the result in V[X] otherwise, and the advance
as its whole effect. -/
theorem completes_writeFlagged (s : State) (x : Nibble) (result flag : Byte) :
    Completes (writeFlagged x result flag s) (WritesFlagged s x result flag) := by
  refine ⟨(s.setResultAndFlag x result flag).advance, rfl, ?_, fun hx => ?_, fun k hk => ?_, pc_add_two_toNat s,
    fun _ => rfl, rfl⟩
  · rw [advance_reg, reg_setResultAndFlag, if_pos rfl]
  · rw [advance_reg, reg_setResultAndFlag, if_neg hx, if_pos rfl]
  · have hkx : k ≠ x := List.ne_of_not_mem_cons hk
    have hk15 : k ≠ 15 := List.ne_of_not_mem_cons (List.not_mem_of_not_mem_cons hk)
    rw [advance_reg, reg_setResultAndFlag, if_neg hk15, if_neg hkx]

/-! ### The sum and its carry (R126, R132) -/

theorem carryFlag_eq (a b : Byte) : carryFlag a b = if a.toNat + b.toNat > 255 then 1 else 0 := by
  simp only [carryFlag, flagByte, decide_eq_true_eq]

theorem byte_add_eq_ofNat_mod (a b : Byte) : a + b = BitVec.ofNat 8 ((a.toNat + b.toNat) % 256) :=
  BitVec.eq_of_toNat_eq (by rw [BitVec.toNat_add, BitVec.toNat_ofNat, Nat.mod_mod])

/-- 8XY4 is `writeFlagged` of the sum modulo 256 and the carry. -/
theorem exec_addReg_eq (x y : Nibble) (s : State) :
    exec (.addReg x y) s = writeFlagged x (BitVec.ofNat 8 (((s.reg x).toNat + (s.reg y).toNat) % 256))
      (if (s.reg x).toNat + (s.reg y).toNat > 255 then 1 else 0) s := by
  rw [← byte_add_eq_ofNat_mod, ← carryFlag_eq]
  rfl

end Sys2Proof.Machine

open Sys2Proof Sys2Proof.Machine Sys2Proof.Safety

/-- Settles O20: 6XNN is `writeReg` of the immediate. -/
theorem loadImmediateWritesTheByte : Obligations.LoadImmediateWritesTheByte := fun s x nn =>
  ⟨encodedAs_of_decodeWord (Laws.Encoding.ldImm x nn) (decodeWord_encode_ldImm x nn), completes_writeReg s x nn⟩

/-- Settles O22: 8XY4 is `writeFlagged`, which writes the flag after the result. -/
theorem addSetsCarry : Obligations.AddSetsCarry := by
  intro s x y
  constructor
  · rw [← formatXYN_zero]
    exact encodedAs_of_decodeWord (Laws.Encoding.addReg x y) (decodeWord_encode_addReg x y)
  · rw [exec_addReg_eq]
    exact completes_writeFlagged s x _ _
end

section
/-! SUPPORT. The display (R170, R171, R174): what 00E0 and DXYN answer, that every other instruction leaves FB and DIRTY (R10), and
that every command but CLEAR_DIRTY leaves a set DIRTY set (R213). -/

namespace Sys2Proof.Machine

open Sys2Proof.Safety

/-- FB and DIRTY, the two elements `mayWriteDisplay` speaks of, are unchanged (R19, R21). -/
def SameDisplay (s t : State) : Prop := t.fb = s.fb ∧ t.dirty = s.dirty

section
variable {s t : State}

/-! ### 00E0 (R170) -/

theorem exec_cls_eq (s : State) : exec .cls s = .next ((s.setFb Framebuffer.clear).setDirty true).advance := rfl

theorem exec_cls_dirty (h : exec .cls s = .next t) : t.dirty = true := by
  rw [exec_cls_eq] at h
  cases h
  rfl

/-! ### DXYN (R171) -/

theorem exec_drw_of_read {x y n : Nibble} {rows : List Byte} (h : memReadRange s (indexBase s) n.toNat = .ok rows) :
    exec (.drw x y n) s =
      .next (((s.setFb (drawSprite s.fb (s.reg x).toNat (s.reg y).toNat rows).1).setFlag
        (collisionFlag (drawSprite s.fb (s.reg x).toNat (s.reg y).toNat rows).2)).setDirty true).advance := by
  simp only [exec, execDrw, h]

theorem exec_drw_of_fault {x y n : Nibble} {e : ErrorCause} (h : memReadRange s (indexBase s) n.toNat = .error e) :
    exec (.drw x y n) s = .next (fatalState s e) := by
  simp only [exec, execDrw, h, takeFault_eq]

/-- R174: a draw that reads its rows sets DIRTY and leaves HALTED, one that faults halts and leaves DIRTY. -/
theorem exec_drw_dirty {x y n : Nibble} (h : exec (.drw x y n) s = .next t) :
    (t.halted = s.halted ∧ t.dirty = true) ∨ (t.halted = true ∧ t.dirty = s.dirty) := by
  cases hread : memReadRange s (indexBase s) n.toNat with
  | ok rows =>
    rw [exec_drw_of_read hread] at h
    cases h
    exact .inl ⟨rfl, rfl⟩
  | error e =>
    rw [exec_drw_of_fault hread] at h
    cases h
    exact .inr ⟨rfl, rfl⟩

/-! ### The operations of the other instructions -/

theorem SameDisplay.setPc (h : SameDisplay s t) (w : Word) : SameDisplay s (t.setPc w) := h

theorem SameDisplay.setI (h : SameDisplay s t) (w : Word) : SameDisplay s (t.setI w) := h

theorem SameDisplay.advance (h : SameDisplay s t) : SameDisplay s t.advance := h

theorem putBytes_sameDisplay (s : State) (a : Nat) (bs : List Byte) : SameDisplay s (s.putBytes a bs) := by
  rw [putBytes_eq]
  exact ⟨rfl, rfl⟩

theorem setRegs_sameDisplay (s : State) (k : Nat) (bs : List Byte) : SameDisplay s (s.setRegs k bs) := by
  rw [setRegs_eq]
  exact ⟨rfl, rfl⟩

theorem memWriteRange_sameDisplay {a : Nat} {bs : List Byte} (hbs : bs ≠ []) (h : memWriteRange s a bs = .ok t) :
    SameDisplay s t := by
  obtain ⟨-, -, rfl⟩ := memWriteRange_ok h hbs
  exact putBytes_sameDisplay s a bs

theorem pop_sameDisplay {w : Word} (h : s.pop = some (w, t)) : SameDisplay s t := by
  obtain ⟨-, -, ht, -⟩ := pop_eq_some h
  rw [ht]
  exact ⟨rfl, rfl⟩

theorem push_sameDisplay {w : Word} (h : s.push w = some t) : SameDisplay s t := by
  obtain ⟨-, -, ht, -⟩ := push_eq_some h
  rw [ht]
  exact ⟨rfl, rfl⟩

/-- R10: an instruction other than 00E0 and DXYN leaves FB and DIRTY, whether it completes or faults. The cases written out are
those with more than one outcome. -/
theorem exec_sameDisplay {i : Instr} (hi : mayWriteDisplay i = false) (h : exec i s = .next t) : SameDisplay s t := by
  cases i with
  | cls | drw => cases hi
  | ret =>
    simp only [exec, execRet] at h
    split at h <;> cases h
    case h_1 hpop => exact (pop_sameDisplay hpop).setPc _
    case h_2 => exact ⟨rfl, rfl⟩
  | call nnn =>
    simp only [exec, execCall] at h
    split at h <;> cases h
    case h_1 hpush => exact (push_sameDisplay hpush).setPc _
    case h_2 => exact ⟨rfl, rfl⟩
  | ldB x =>
    simp only [exec, execLdB] at h
    split at h <;> cases h
    case h_1 hwrite => exact (memWriteRange_sameDisplay (List.cons_ne_nil _ _) hwrite).advance
    case h_2 => exact ⟨rfl, rfl⟩
  | stRegs x =>
    simp only [exec, execStRegs] at h
    split at h <;> cases h
    case h_1 hwrite => exact ((memWriteRange_sameDisplay (firstRegs_rangeLength_ne_nil s x) hwrite).setI _).advance
    case h_2 => exact ⟨rfl, rfl⟩
  | ldRegs x =>
    simp only [exec, execLdRegs] at h
    split at h <;> cases h
    case h_1 => exact ((setRegs_sameDisplay s 0 _).setI _).advance
    case h_2 => exact ⟨rfl, rfl⟩
  | skp x | sknp x | ldVxK x =>
    simp only [exec, execSkp, execSknp, execLdVxK] at h
    split at h <;> cases h <;> exact ⟨rfl, rfl⟩
  | _ => cases h; exact ⟨rfl, rfl⟩

/-! ### DIRTY once set stays set (R174) -/

theorem exec_keeps_dirty {i : Instr} (h : exec i s = .next t) (hd : s.dirty = true) : t.dirty = true := by
  cases hi : mayWriteDisplay i with
  | false => exact (exec_sameDisplay hi h).2.trans hd
  | true =>
    cases i with
    | cls => exact exec_cls_dirty h
    | drw x y n => exact (exec_drw_dirty h).elim And.right fun hfault => hfault.2.trans hd
    | _ => cases hi

theorem step_keeps_dirty (h : step s = .next t) (hd : s.dirty = true) : t.dirty = true := by
  obtain ⟨-, rfl⟩ | ⟨-, e, -, rfl⟩ | ⟨-, w, -, -, rfl⟩ | ⟨-, w, i, -, -, hexec⟩ := step_cases h
  · exact hd
  · exact hd
  · exact hd
  · exact exec_keeps_dirty hexec hd

theorem hostLoad_sameDisplay (s : State) (bytes : List Byte) : SameDisplay s (s.hostLoad bytes) := by
  unfold State.hostLoad
  split
  · exact ⟨rfl, rfl⟩
  · exact putBytes_sameDisplay s 0x200 bytes

/-- R174, R213: every command but CLEAR_DIRTY leaves a set DIRTY set. -/
theorem perform_keeps_dirty {c : Command} (hc : c ≠ .clearDirty) (h : perform c s = .next t) (hd : s.dirty = true) :
    t.dirty = true := by
  cases c with
  | reset => cases h; rfl
  | load bytes => cases h; exact (hostLoad_sameDisplay s bytes).2.trans hd
  | step => exact step_keeps_dirty h hd
  | tick => cases h; exact hd
  | setKey index pressed => cases h; exact hd
  | clearDirty => exact absurd rfl hc

end

end Sys2Proof.Machine

open Sys2Proof Sys2Proof.Machine Sys2Proof.Safety

/-- Settles O36: the one state 00E0 answers has the cleared framebuffer, each cell of which reads 0. -/
theorem clearScreenZeroesEveryPixel : Obligations.ClearScreenZeroesEveryPixel :=
  ⟨encodedAs_of_decodeWord Laws.Encoding.cls (by decide), fun s =>
    ⟨_, exec_cls_eq s, fun _ => cell_clear _ _, rfl, pc_add_two_toNat s, fun _ => rfl, rfl⟩⟩

/-- Settles O40: a draw from a running machine either sets DIRTY or halts, and a command other than CLEAR_DIRTY that meets DIRTY
true leaves it true. -/
theorem dirtyIsSetByDrawsAndClearedOnlyByTheHost : Obligations.DirtyIsSetByDrawsAndClearedOnlyByTheHost := by
  refine ⟨fun s t => exec_cls_dirty, fun s t x y n hrun h => ?_, fun s => ⟨s.hostReset, rfl, rfl⟩, fun s => rfl,
    fun c s t h hset hclear => ?_⟩
  · obtain ⟨hhalted, hdirty⟩ | ⟨hhalted, hdirty⟩ := exec_drw_dirty h
    · rw [hhalted, hrun]
      exact hdirty
    · rw [hhalted]
      exact hdirty
  · by_contra hc
    exact Bool.false_ne_true (hclear.symm.trans (perform_keeps_dirty hc h hset))
end

section
/-! SUPPORT. LOAD of a program that does not fit (R211, R231): what the command returns and does, and that a fetch does not see the
recorded error. -/

namespace Sys2Proof.Machine

section
variable {bytes : List Byte}

theorem reply_load_tooLarge (s : State) (h : maxProgram < bytes.length) : reply (.load bytes) s = .romTooLarge :=
  if_pos h

theorem hostLoad_tooLarge (s : State) (h : maxProgram < bytes.length) :
    s.hostLoad bytes = s.recordError (.romTooLarge bytes.length) :=
  if_pos h

theorem perform_load_tooLarge (s : State) (h : maxProgram < bytes.length) :
    perform (.load bytes) s = .next (s.recordError (.romTooLarge bytes.length)) :=
  congrArg _ (hostLoad_tooLarge s h)

end

/-- R45: a fetch reads PC and memory, and recording an error changes neither. -/
@[simp] theorem fetch_recordError (s : State) (e : ErrorCause) : fetch (s.recordError e) = fetch s := by
  simp only [fetch, recordError_pc, recordError_readByte]

/-- R231: a recorded error does not stop the machine, so STEP runs the instruction that was at PC before. -/
theorem step_recordError_exec {s : State} {w : Word} {i : Instr} (e : ErrorCause) (hrun : s.halted = false)
    (hfetch : fetch s = .ok w) (hdec : decodeWord w = .ok i) : step (s.recordError e) = exec i (s.recordError e) :=
  step_exec ((recordError_halted s e).trans hrun) ((fetch_recordError s e).trans hfetch) hdec

end Sys2Proof.Machine

open Sys2Proof Sys2Proof.Machine Sys2Proof.Safety

/-- Settles O49: the command only records the error, and neither the halt gate nor the fetch of a STEP looks at the record. -/
theorem tooLargeProgramLeavesTheState : Obligations.TooLargeProgramLeavesTheState := by
  intro s bytes hlen
  exact ⟨reply_load_tooLarge s hlen, s.recordError (.romTooLarge bytes.length), perform_load_tooLarge s hlen,
    recordError_lastError s _, recordError_readByte s _, rfl, fun _ _ => step_recordError_exec _⟩
end

section
/-! SUPPORT. The encoding, both ways (R61 to R71, R74): every instruction is read back from its word, the decoder accepts exactly the
words outside R70's list, and the rows of R64's table are disjoint. -/

namespace Sys2Proof

open Sys2Proof.Machine (mem_allKeys allKeys)

/-! ### Every instruction is read back from its word, one group per format of R62 -/

theorem decodeFamily_encode (i : Instr) : decodeFamily (encode i) = some i := by
  cases i with
  | cls | ret => rfl
  | jp nnn | call nnn | ldI nnn | jpV0 nnn =>
    simp only [encode, Instr.row, decodeFamily, fieldOp_formatNNN, fieldNNN_formatNNN]
    simp [fieldOp, fieldNNN]
  | seImm x nn | sneImm x nn | ldImm x nn | addImm x nn | rnd x nn =>
    simp only [encode, Instr.row, decodeFamily, fieldOp_formatXNN, fieldX_formatXNN, fieldNN_formatXNN]
    simp [fieldOp, fieldX, fieldNN]
  | seReg x y n | sneReg x y n | drw x y n =>
    simp only [encode, Instr.row, decodeFamily, fieldOp_formatXYN, fieldX_formatXYN, fieldY_formatXYN, fieldN_formatXYN]
    simp [fieldOp, fieldX, fieldY, fieldN]
  | ldReg x y | orReg x y | andReg x y | xorReg x y | addReg x y | subReg x y | shr x y | subnReg x y | shl x y =>
    simp only [encode, Instr.row, decodeFamily, decodeFamily8, fieldOp_formatXYN, fieldX_formatXYN, fieldY_formatXYN,
      fieldN_formatXYN]
    simp [fieldOp, fieldX, fieldY, fieldN]
  | skp x | sknp x =>
    simp only [encode, Instr.row, decodeFamily, decodeFamilyE, fieldOp_formatXFN, fieldX_formatXFN, fieldNN_formatXFN]
    simp [fieldOp, fieldX, fieldNN]
  | ldVxDt x | ldVxK x | ldDtVx x | ldStVx x | addI x | ldF x | ldB x | stRegs x | ldRegs x =>
    simp only [encode, Instr.row, decodeFamily, decodeFamilyF, fieldOp_formatXFN, fieldX_formatXFN, fieldNN_formatXFN]
    simp [fieldOp, fieldX, fieldNN]

theorem decodeWord_encode (i : Instr) : decodeWord (encode i) = .ok i :=
  decodeWord_eq_ok_iff.2 (decodeFamily_encode i)

/-- R74: the two bytes of a word, high byte first, make the word again. -/
theorem wordOfBytes_extractLsb' (w : Word) : wordOfBytes (w.extractLsb' 8 8) (w.extractLsb' 0 8) = w :=
  BitVec.extractLsb'_append_extractLsb' (w := 8) (len := 8)

/-! ### The masks of R70's list name the fields the decoder matches -/

section
variable (w : Word)

theorem and_opMask : w &&& 0xF000#16 = (fieldOp w).setWidth 16 <<< 12 := by
  refine BitVec.eq_of_getLsbD_eq fun k hk => ?_
  interval_cases k <;> simp [fieldOp]

theorem and_nMask : w &&& 0x000F#16 = (fieldN w).setWidth 16 := by
  refine BitVec.eq_of_getLsbD_eq fun k hk => ?_
  interval_cases k <;> simp [fieldN]

theorem and_nnMask : w &&& 0x00FF#16 = (fieldNN w).setWidth 16 := by
  refine BitVec.eq_of_getLsbD_eq fun k hk => ?_
  interval_cases k <;> simp [fieldNN]

theorem recognisedFamily8_eq_contains :
    Word.recognisedFamily8 w = [0x0#4, 0x1#4, 0x2#4, 0x3#4, 0x4#4, 0x5#4, 0x6#4, 0x7#4, 0xE#4].contains (fieldN w) := by
  rw [Word.recognisedFamily8, and_nMask]
  generalize fieldN w = n
  revert n
  decide

theorem recognisedFamilyE_eq_contains : Word.recognisedFamilyE w = [0x9E#8, 0xA1#8].contains (fieldNN w) := by
  rw [Word.recognisedFamilyE, and_nnMask]
  generalize fieldNN w = nn
  revert nn
  decide

theorem recognisedFamilyF_eq_contains :
    Word.recognisedFamilyF w =
      [0x07#8, 0x0A#8, 0x15#8, 0x18#8, 0x1E#8, 0x29#8, 0x33#8, 0x55#8, 0x65#8].contains (fieldNN w) := by
  rw [Word.recognisedFamilyF, and_nnMask]
  generalize fieldNN w = nn
  revert nn
  decide

theorem recognised_eq_fields :
    Word.recognised w =
      if fieldOp w = 0x0#4 then Word.recognisedFamily0 w
      else if fieldOp w = 0x8#4 then Word.recognisedFamily8 w
      else if fieldOp w = 0xE#4 then Word.recognisedFamilyE w
      else if fieldOp w = 0xF#4 then Word.recognisedFamilyF w
      else true := by
  have hinj : ∀ m n : Nibble, (m.setWidth 16 <<< 12 = n.setWidth 16 <<< 12) ↔ m = n := by decide
  simp only [Word.recognised, and_opMask]
  simp only [← hinj]
  rfl

/-! ### The decoder accepts exactly the recognised words, family by family -/

theorem recognisedFamily0_eq : Word.recognisedFamily0 w = (decodeFamily0 w).isSome := by
  unfold decodeFamily0
  split <;> simp_all [Word.recognisedFamily0]

theorem recognisedFamily8_eq : Word.recognisedFamily8 w = (decodeFamily8 w).isSome := by
  rw [recognisedFamily8_eq_contains]
  unfold decodeFamily8
  split <;> simp_all

theorem recognisedFamilyE_eq : Word.recognisedFamilyE w = (decodeFamilyE w).isSome := by
  rw [recognisedFamilyE_eq_contains]
  unfold decodeFamilyE
  split <;> simp_all

theorem recognisedFamilyF_eq : Word.recognisedFamilyF w = (decodeFamilyF w).isSome := by
  rw [recognisedFamilyF_eq_contains]
  unfold decodeFamilyF
  split <;> simp_all

theorem recognised_eq : Word.recognised w = (decodeFamily w).isSome := by
  unfold decodeFamily
  split
  case h_1 hop => simpa [recognised_eq_fields, hop] using recognisedFamily0_eq w
  case h_9 hop => simpa [recognised_eq_fields, hop] using recognisedFamily8_eq w
  case h_15 hop => simpa [recognised_eq_fields, hop] using recognisedFamilyE_eq w
  case h_16 hop => simpa [recognised_eq_fields, hop] using recognisedFamilyF_eq w
  case h_2 hop | h_3 hop | h_4 hop | h_5 hop | h_6 hop | h_7 hop | h_8 hop | h_10 hop | h_11 hop | h_12 hop | h_13 hop
      | h_14 hop =>
    simp [recognised_eq_fields, hop]
  case h_17 =>
    have hop := mem_allKeys (fieldOp w)
    simp_all [allKeys]

theorem decodeWord_isOk_iff : (∃ i, decodeWord w = .ok i) ↔ Word.recognised w = true := by
  simp only [recognised_eq, Option.isSome_iff_exists, decodeWord_eq_ok_iff]

theorem decodeFamily_eq_none_iff : decodeFamily w = none ↔ Word.recognised w = false := by
  rw [recognised_eq, Option.isSome_eq_false_iff, Option.isNone_iff_eq_none]

theorem decodeWord_eq_error_iff {e : Reject} :
    decodeWord w = .error e ↔ Word.recognised w = false ∧ e = .unknownOpcode w := by
  rw [← decodeFamily_eq_none_iff]
  cases hd : decodeFamily w <;> simp [decodeWord, hd, eq_comm]

/-! ### The rows of R64's table -/

/-- R64: the operands of an instruction lie outside its row. -/
theorem row_mem_opcodeRows (i : Instr) : i.row ∈ opcodeRows := by
  cases i <;> exact List.mem_of_elem_eq_true rfl

theorem selects_iff {r : Row} {w : Word} : r.selects w = true ↔ w &&& r.mask = r.pattern := beq_iff_eq

/-- Two rows of the table that differ ask for different values of a bit that both masks keep. -/
theorem opcodeRows_disjoint : ∀ r ∈ opcodeRows, ∀ r' ∈ opcodeRows, r.pattern &&& r'.mask = r'.pattern &&& r.mask → r = r' := by
  decide

theorem row_eq_of_selects {r r' : Row} (hr : r ∈ opcodeRows) (hr' : r' ∈ opcodeRows) (h : r.selects w = true)
    (h' : r'.selects w = true) : r = r' := by
  refine opcodeRows_disjoint r hr r' hr' ?_
  rw [← selects_iff.1 h, ← selects_iff.1 h', BitVec.and_assoc, BitVec.and_assoc, BitVec.and_comm r.mask]

/-- What R65 to R68 ask of the words of each row lies inside the row's mask. -/
theorem opcodeRows_family : ∀ r ∈ opcodeRows,
    (r.mask = 0xFFFF#16 ∧ Word.recognised r.pattern = true) ∨
    (r.mask = 0xF000#16 ∧ r.pattern &&& 0xF000#16 ∉ [0x0000#16, 0x8000#16, 0xE000#16, 0xF000#16]) ∨
    (r.mask = 0xF00F#16 ∧ r.pattern &&& 0xF000#16 = 0x8000#16 ∧ Word.recognisedFamily8 r.pattern = true) ∨
    (r.mask = 0xF0FF#16 ∧ r.pattern &&& 0xF000#16 = 0xE000#16 ∧ Word.recognisedFamilyE r.pattern = true) ∨
    (r.mask = 0xF0FF#16 ∧ r.pattern &&& 0xF000#16 = 0xF000#16 ∧ Word.recognisedFamilyF r.pattern = true) := by
  decide

/-- R64, R70: a word that selects a row is recognised. -/
theorem recognised_of_selects {r : Row} (hr : r ∈ opcodeRows) (h : r.selects w = true) : Word.recognised w = true := by
  have hkeep (m : Word) (hm : r.mask &&& m = m) : w &&& m = r.pattern &&& m := by
    rw [← selects_iff.1 h, BitVec.and_assoc, hm]
  obtain ⟨hmask, hrec⟩ | ⟨hmask, hop⟩ | ⟨hmask, hop, hrec⟩ | ⟨hmask, hop, hrec⟩ | ⟨hmask, hop, hrec⟩ :=
    opcodeRows_family r hr <;> rw [hmask] at hkeep
  · have hw : w = r.pattern := by
      rw [← selects_iff.1 h, hmask]
      exact BitVec.and_allOnes.symm
    rw [hw, hrec]
  · simp only [List.mem_cons, List.not_mem_nil, or_false, not_or] at hop
    simp [Word.recognised, hkeep 0xF000#16 rfl, hop]
  · simp only [Word.recognised, Word.recognisedFamily8, hkeep 0xF000#16 rfl, hkeep 0x000F#16 rfl, hop] at hrec ⊢
    exact hrec
  · simp only [Word.recognised, Word.recognisedFamilyE, hkeep 0xF000#16 rfl, hkeep 0x00FF#16 rfl, hop] at hrec ⊢
    exact hrec
  · simp only [Word.recognised, Word.recognisedFamilyF, hkeep 0xF000#16 rfl, hkeep 0x00FF#16 rfl, hop] at hrec ⊢
    exact hrec

end

/-- R64: the encoded word of every instruction selects the instruction's row. -/
theorem row_selects_encode (i : Instr) : i.row.selects (encode i) = true := by
  cases i with
  | cls | ret => rfl
  | jp nnn | call nnn | ldI nnn | jpV0 nnn => exact Laws.Encoding.selects_NNN nnn (by decide)
  | seImm x nn | sneImm x nn | ldImm x nn | addImm x nn | rnd x nn => exact Laws.Encoding.selects_XNN x nn (by decide)
  | seReg x y n | sneReg x y n | drw x y n => exact Laws.Encoding.selects_XYN x y n (by decide)
  | ldReg x y | orReg x y | andReg x y | xorReg x y | addReg x y | subReg x y | shr x y | subnReg x y | shl x y =>
    exact Laws.Encoding.selects_XY0 x y (by decide)
  | skp x | sknp x | ldVxDt x | ldVxK x | ldDtVx x | ldStVx x | addI x | ldF x | ldB x | stRegs x | ldRegs x =>
    exact Laws.Encoding.selects_XFN x (by decide)

end Sys2Proof

open Sys2Proof Sys2Proof.Machine Sys2Proof.Safety

/-- Settles O1: each format keeps the pattern's fields and puts the operands in the fields the pattern leaves 0, so the decoder
takes the row's branch and reads the operands back. -/
theorem decodeOfEncode : Obligations.DecodeOfEncode := fun i =>
  ⟨decodeWord_encode i, fun rest =>
    decode_cons_cons_eq_ok_iff.2 ⟨by rw [wordOfBytes_extractLsb', decodeWord_encode], rfl⟩⟩

/-- Settles O2: in each family the fields that are not operands are the pattern's own, so the word is put together again. -/
theorem encodeOfDecode : Obligations.EncodeOfDecode := fun _ _ => encode_of_decodeWord

/-- Settles O3: R70's list, read field by field, is where the decoder has no branch. -/
theorem unrecognisedWordsAreExactlyRejected : Obligations.UnrecognisedWordsAreExactlyRejected := fun w =>
  ⟨(decodeWord_eq_error_iff w).trans (and_iff_left rfl) |>.symm, (decodeWord_isOk_iff w).symm⟩

/-- Settles O4: a decoded word is an encoding, which selects its instruction's row, and the rows are disjoint; a rejected word is
not recognised, and every word that selects a row is. -/
theorem decodedWordSelectsItsRowAlone : Obligations.DecodedWordSelectsItsRowAlone := by
  intro w
  refine ⟨fun i hdec r hr => ?_, fun e hdec r hr => ?_⟩
  · have hsel : i.row.selects w = true := encode_of_decodeWord hdec ▸ row_selects_encode i
    exact ⟨fun h => row_eq_of_selects w hr (row_mem_opcodeRows i) h hsel, fun h => h ▸ hsel⟩
  · obtain ⟨hrec, -⟩ := (decodeWord_eq_error_iff w).1 hdec
    by_contra hsel
    rw [recognised_of_selects w hr (Bool.eq_true_of_not_eq_false hsel)] at hrec
    cases hrec

/-- Settles O5: the worked words are the encodings of their instructions. -/
theorem specWordsDecode : Obligations.SpecWordsDecode := by
  unfold Obligations.SpecWordsDecode
  decide
end

section
/-! SUPPORT. What an instruction can do, said once for all 34 (R10, R84, R85, R238): it takes a fatal fault and does nothing else, or
it changes only the elements it is a writer of and then moves PC. -/

namespace Sys2Proof.Machine

open Sys2Proof.Safety

/-! ### Reading a byte -/

theorem readByte_congr {s t : State} (hmem : t.mem = s.mem) (hfont : t.font = s.font) (a : Nat) :
    t.readByte a = s.readByte a := by
  simp only [State.readByte, hmem, hfont]

/-! ### The elements an instruction may change before it moves PC -/

/-- The instruction has stored exactly the bytes it names, all in the program region (R48). -/
def StoresOwnBytes (i : Instr) (s t : State) : Prop :=
  mayStore i = true ∧ ∃ bs : List Byte, 0x200 ≤ indexBase s ∧ indexBase s + bs.length ≤ 0x1000 ∧
    t.mem = (s.putBytes (indexBase s) bs).mem ∧
    ∀ a, storesAt i s a = false → a < indexBase s ∨ indexBase s + bs.length ≤ a

/-- R10's column `written by` for every element but PC, FB and DIRTY: `t` differs from `s` only where `i` is a writer. -/
structure WrittenOnlyBy (i : Instr) (s t : State) : Prop where
  reg : ∀ k, mayWriteReg i k = false → t.reg k = s.reg k
  index : mayWriteI i = false → t.i = s.i
  pc : t.pc = s.pc
  stack : mayWriteStack i = false → t.stack = s.stack
  sp : mayWriteSp i = false → t.sp = s.sp
  delay : (∀ x, i ≠ .ldDtVx x) → t.dt = s.dt
  sound : (∀ x, i ≠ .ldStVx x) → t.st = s.st
  mem : t.mem = s.mem ∨ StoresOwnBytes i s t
  font : t.font = s.font
  key : t.key = s.key
  beep : t.beep = s.beep
  draws : (∀ x nn, i ≠ .rnd x nn) → (∀ x, i ≠ .ldVxK x) → t.draws = s.draws
  halted : t.halted = s.halted
  lastError : t.lastError = s.lastError

section
variable {i : Instr} {s t : State}

namespace WrittenOnlyBy

theorem refl (i : Instr) (s : State) : WrittenOnlyBy i s s where
  reg _ _ := rfl
  index _ := rfl
  pc := rfl
  stack _ := rfl
  sp _ := rfl
  delay _ := rfl
  sound _ := rfl
  mem := .inl rfl
  font := rfl
  key := rfl
  beep := rfl
  draws _ _ := rfl
  halted := rfl
  lastError := rfl

theorem setReg (h : WrittenOnlyBy i s t) {x : Nibble} (hx : mayWriteReg i x = true) (b : Byte) :
    WrittenOnlyBy i s (t.setReg x b) :=
  { h with
    reg := fun k hk => by
      have hkx : k ≠ x := fun e => Bool.false_ne_true (hk.symm.trans (e ▸ hx))
      rw [reg_setReg, if_neg hkx, h.reg k hk] }

theorem setFlag (h : WrittenOnlyBy i s t) (hvf : mayWriteReg i 15 = true) (b : Byte) : WrittenOnlyBy i s (t.setFlag b) :=
  h.setReg hvf b

theorem setI (h : WrittenOnlyBy i s t) (hi : mayWriteI i = true) (w : Word) : WrittenOnlyBy i s (t.setI w) :=
  { h with index := fun hn => absurd (hn.symm.trans hi) Bool.false_ne_true }

theorem setFb (h : WrittenOnlyBy i s t) (fb : Framebuffer) : WrittenOnlyBy i s (t.setFb fb) := { h with }

theorem setDirty (h : WrittenOnlyBy i s t) (d : Bool) : WrittenOnlyBy i s (t.setDirty d) := { h with }

theorem countDraw (h : WrittenOnlyBy i s t) (hd : ¬ ((∀ x nn, i ≠ .rnd x nn) ∧ ∀ x, i ≠ .ldVxK x)) :
    WrittenOnlyBy i s t.countDraw :=
  { h with draws := fun hrnd hkey => absurd ⟨hrnd, hkey⟩ hd }

theorem setDt (s : State) (x : Nibble) (b : Byte) : WrittenOnlyBy (.ldDtVx x) s (s.setDt b) :=
  { refl _ s with delay := fun h => absurd rfl (h x) }

theorem setSt (s : State) (x : Nibble) (b : Byte) : WrittenOnlyBy (.ldStVx x) s (s.setSt b) :=
  { refl _ s with sound := fun h => absurd rfl (h x) }

theorem pop {w : Word} (h : s.pop = some (w, t)) : WrittenOnlyBy .ret s t := by
  obtain ⟨-, -, ht, -⟩ := pop_eq_some h
  rw [ht]
  exact { refl .ret s with sp := fun hi => by cases hi }

theorem push {w : Word} (nnn : BitVec 12) (h : s.push w = some t) : WrittenOnlyBy (.call nnn) s t := by
  obtain ⟨-, -, ht, -⟩ := push_eq_some h
  rw [ht]
  exact { refl (.call nnn) s with stack := fun hi => (by cases hi), sp := fun hi => (by cases hi) }

theorem putBytes {bs : List Byte} (hi : mayStore i = true) (hlo : 0x200 ≤ indexBase s)
    (hhi : indexBase s + bs.length ≤ 0x1000)
    (hbs : ∀ a, storesAt i s a = false → a < indexBase s ∨ indexBase s + bs.length ≤ a) :
    WrittenOnlyBy i s (s.putBytes (indexBase s) bs) := by
  have hmem : StoresOwnBytes i s (s.putBytes (indexBase s) bs) := ⟨hi, bs, hlo, hhi, rfl, hbs⟩
  rw [putBytes_eq] at hmem ⊢
  exact { refl i s with mem := .inr hmem }

theorem setRegs {bs : List Byte} (x : Nibble) (hbs : bs.length = rangeLength x) :
    WrittenOnlyBy (.ldRegs x) s (s.setRegs 0 bs) := by
  have hreg : ∀ k, mayWriteReg (.ldRegs x) k = false → (s.setRegs 0 bs).reg k = s.reg k := fun k hk =>
    reg_setRegs_zero_outside (hbs ▸ rangeLength_le x) (hbs ▸ Nat.lt_of_not_le (of_decide_eq_false hk))
  rw [setRegs_eq] at hreg ⊢
  exact { refl (.ldRegs x) s with reg := hreg }

end WrittenOnlyBy

theorem writtenOnlyBy_ldB {x : Nibble} (h : memWriteRange s (indexBase s) (bcdDigits (s.reg x)) = .ok t) :
    WrittenOnlyBy (.ldB x) s t := by
  obtain ⟨hlo, hhi, rfl⟩ := memWriteRange_ok h (List.cons_ne_nil _ _)
  refine .putBytes rfl hlo hhi fun a ha => ?_
  have hout := of_decide_eq_false ha
  have hlen : (bcdDigits (s.reg x)).length = 3 := rfl
  omega

theorem writtenOnlyBy_stRegs {x : Nibble}
    (h : memWriteRange s (indexBase s) (s.firstRegs (rangeLength x)) = .ok t) : WrittenOnlyBy (.stRegs x) s t := by
  obtain ⟨hlo, hhi, rfl⟩ := memWriteRange_ok h (firstRegs_rangeLength_ne_nil s x)
  refine .putBytes rfl hlo hhi fun a ha => ?_
  have hout := of_decide_eq_false ha
  have hlen : (s.firstRegs (rangeLength x)).length = x.toNat + 1 := firstRegs_length s _
  omega

/-! ### How PC moves at the end (R84, R85) -/

/-- R101 to R103, R100: the instructions that load PC. -/
def loadsPc : Instr → Bool
  | .jp _ | .call _ | .jpV0 _ | .ret => true
  | _ => false

/-- The last thing a completing instruction does: the advance of R84, a skip, a load of PC, or the wait of R192. -/
inductive PcMove (i : Instr) (s : State) : State → Prop where
  | advance : PcMove i s s.advance
  | skip (hi : hasOwnPcRule i = true) (c : Bool) : PcMove i s (s.skipIf c)
  | load (hi : loadsPc i = true) (w : Word) : PcMove i s (s.setPc w)
  | wait (hi : hasOwnPcRule i = true) : PcMove i s s

/-- What an instruction does: the fatal entry of R238 alone, or writes of its own followed by its move of PC. -/
def Effect (i : Instr) (s t : State) : Prop :=
  (∃ cause, cause.fatal = true ∧ t = fatalState s cause) ∨ ∃ u, WrittenOnlyBy i s u ∧ PcMove i u t

theorem completes_fault {e : ErrorCause} (i : Instr) (s : State) (he : e.fatal = true) :
    Completes (takeFault s e) (Effect i s) :=
  ⟨_, rfl, .inl ⟨e, he, rfl⟩⟩

theorem completes_move {u : State} (h : WrittenOnlyBy i s u) (hm : PcMove i u t) : Completes (.next t) (Effect i s) :=
  ⟨t, rfl, .inr ⟨u, h, hm⟩⟩

/-! ### The causes of the faults -/

theorem memReadRange_error {a n : Nat} {e : ErrorCause} (h : memReadRange s a n = .error e) : e.fatal = true := by
  rw [memReadRange_eq] at h
  split at h <;> cases h
  rfl

theorem memReadRange_length {a n : Nat} {bs : List Byte} (h : memReadRange s a n = .ok bs) : bs.length = n := by
  rw [memReadRange_eq] at h
  split at h <;> cases h
  rw [List.length_map, List.length_range]

theorem memWriteRange_error {a : Nat} {bs : List Byte} {e : ErrorCause} (h : memWriteRange s a bs = .error e) :
    e.fatal = true := by
  rw [memWriteRange_eq] at h
  split at h
  · cases h
  · split at h
    · cases h; rfl
    · split at h <;> cases h
      rfl

theorem fetch_error {e : ErrorCause} (h : fetch s = .error e) : e.fatal = true := by
  rw [fetch_eq] at h
  split at h <;> cases h
  rfl

/-! ### Every instruction -/

/-- Every instruction answers a next state, from every state, and its effect is one of the two. The cases are grouped by the form
of the meaning; a `match` in the meaning is a case split here. -/
theorem exec_completes (i : Instr) (s : State) : Completes (exec i s) (Effect i s) := by
  have self : WrittenOnlyBy i s s := .refl i s
  cases i with
  | cls => exact completes_move ((self.setFb _).setDirty _) .advance
  | ret =>
    simp only [exec, execRet]
    split
    case h_1 hpop => exact completes_move (.pop hpop) (.load rfl _)
    case h_2 => exact completes_fault _ s rfl
  | jp nnn | jpV0 nnn => exact completes_move self (.load rfl _)
  | call nnn =>
    simp only [exec, execCall]
    split
    case h_1 hpush => exact completes_move (.push nnn hpush) (.load rfl _)
    case h_2 => exact completes_fault _ s rfl
  | seImm x nn | sneImm x nn | seReg x y n | sneReg x y n => exact completes_move self (.skip rfl _)
  | ldImm x nn | addImm x nn | ldReg x y | orReg x y | andReg x y | xorReg x y | ldVxDt x =>
    exact completes_move (self.setReg (beq_self_eq_true x) _) .advance
  | addReg x y | subReg x y | shr x y | subnReg x y | shl x y =>
    exact completes_move ((self.setReg (by simp [mayWriteReg]) _).setFlag (by simp [mayWriteReg]) _) .advance
  | ldI nnn | ldF x => exact completes_move (self.setI rfl _) .advance
  | rnd x nn =>
    exact completes_move ((self.countDraw fun h => h.1 x nn rfl).setReg (beq_self_eq_true x) _) .advance
  | drw x y n =>
    simp only [exec, execDrw]
    split
    case h_1 => exact completes_move (((self.setFb _).setFlag rfl _).setDirty _) .advance
    case h_2 hread => exact completes_fault _ s (memReadRange_error hread)
  | skp x | sknp x =>
    simp only [exec, execSkp, execSknp]
    split
    case h_1 => exact completes_move self (.skip rfl _)
    case h_2 => exact completes_fault _ s rfl
  | ldVxK x =>
    simp only [exec, execLdVxK]
    split
    case h_1 => exact completes_move self (.wait rfl)
    case h_2 => exact completes_move ((self.countDraw fun h => h.2 x rfl).setReg (beq_self_eq_true x) _) .advance
  | ldDtVx x => exact completes_move (.setDt s x _) .advance
  | ldStVx x => exact completes_move (.setSt s x _) .advance
  | addI x => exact completes_move ((self.setI rfl _).setFlag rfl _) .advance
  | ldB x =>
    simp only [exec, execLdB]
    split
    case h_1 hwrite => exact completes_move (writtenOnlyBy_ldB hwrite) .advance
    case h_2 hwrite => exact completes_fault _ s (memWriteRange_error hwrite)
  | stRegs x =>
    simp only [exec, execStRegs]
    split
    case h_1 hwrite => exact completes_move ((writtenOnlyBy_stRegs hwrite).setI rfl _) .advance
    case h_2 hwrite => exact completes_fault _ s (memWriteRange_error hwrite)
  | ldRegs x =>
    simp only [exec, execLdRegs]
    split
    case h_1 hread => exact completes_move ((WrittenOnlyBy.setRegs x (memReadRange_length hread)).setI rfl _) .advance
    case h_2 hread => exact completes_fault _ s (memReadRange_error hread)

theorem exec_effect (h : exec i s = .next t) : Effect i s t := by
  obtain ⟨u, hu, heff⟩ := exec_completes i s
  rw [hu] at h
  cases h
  exact heff

/-! ### The bytes of memory after an instruction -/

theorem WrittenOnlyBy.sameBytes (h : WrittenOnlyBy i s t) (hi : mayStore i = false) : SameBytes s t := by
  obtain hmem | ⟨hstore, -⟩ := h.mem
  · exact readByte_congr hmem h.font
  · exact absurd (hi.symm.trans hstore) Bool.false_ne_true

theorem WrittenOnlyBy.readByte_of_not_storesAt (h : WrittenOnlyBy i s t) (hwf : s.memWf = true) {a : Nat}
    (ha : storesAt i s a = false) : t.readByte a = s.readByte a := by
  obtain hmem | ⟨-, bs, -, hhi, hmem, hout⟩ := h.mem
  · exact readByte_congr hmem h.font a
  · have hfont : t.font = (s.putBytes (indexBase s) bs).font := by rw [h.font, putBytes_eq]
    rw [readByte_congr hmem hfont, readByte_putBytes_outside hwf hhi (hout a ha)]

/-! ### PC after an instruction -/

/-- Moving PC changes nothing else. -/
theorem PcMove.exists_setPc {u : State} (h : PcMove i u t) : ∃ w, t = u.setPc w := by
  cases h with
  | advance => exact ⟨_, rfl⟩
  | skip hi c => exact ⟨_, rfl⟩
  | load hi w => exact ⟨w, rfl⟩
  | wait hi => exact ⟨t.pc, rfl⟩

theorem hasOwnPcRule_of_loadsPc (h : loadsPc i = true) : hasOwnPcRule i = true := by
  cases i with
  | jp | call | jpV0 | ret => rfl
  | _ => cases h

theorem PcMove.eq_advance {u : State} (h : PcMove i u t) (hi : hasOwnPcRule i = false) : t = u.advance := by
  cases h with
  | advance => rfl
  | skip hown | wait hown => exact absurd (hi.symm.trans hown) Bool.false_ne_true
  | load hload w => exact absurd (hi.symm.trans (hasOwnPcRule_of_loadsPc hload)) Bool.false_ne_true

/-- R47, R84, R85: an instruction that does not load PC moves it by 0, 2 or 4, so an even PC stays even. -/
theorem PcMove.even {u : State} (h : PcMove i u t) (hi : loadsPc i = false) (heven : u.pc.toNat % 2 = 0) :
    t.pc.toNat % 2 = 0 := by
  cases h with
  | advance =>
    rw [advance_pc, pc_add_two_toNat]
    omega
  | skip hown c =>
    rw [skipIf_pc_toNat]
    split <;> omega
  | load hload w => exact absurd (hi.symm.trans hload) Bool.false_ne_true
  | wait hown => exact heven

/-! ### HALTED and LAST_ERROR after an instruction -/

/-- R238: an instruction takes a fatal fault, or leaves both latches. -/
theorem exec_latches (h : exec i s = .next t) :
    (∃ cause, cause.fatal = true ∧ t = fatalState s cause) ∨ (t.halted = s.halted ∧ t.lastError = s.lastError) := by
  obtain hfault | ⟨u, hu, hm⟩ := exec_effect h
  · exact .inl hfault
  · obtain ⟨w, rfl⟩ := hm.exists_setPc
    exact .inr ⟨hu.halted, hu.lastError⟩

/-- An instruction halts a machine that was not halted by a fatal fault only. -/
theorem exec_fatal_of_halted (h : exec i s = .next t) (hrun : s.halted = false) (hhalt : t.halted = true) :
    ∃ cause, cause.fatal = true ∧ t = fatalState s cause := by
  obtain hfault | ⟨hsame, -⟩ := exec_latches h
  · exact hfault
  · rw [hsame, hrun] at hhalt
    cases hhalt

/-! ### SP and STACK after an instruction, and after a STEP -/

/-- R15, R16: SP moves by at most one, only the entry it names can change, and only where SP rises. -/
def MovesStackByOneEntry (s t : State) : Prop :=
  t.sp.val ≤ s.sp.val + 1 ∧ s.sp.val ≤ t.sp.val + 1 ∧
  (∀ k : Fin 16, k.val ≠ s.sp.val → t.stack[k] = s.stack[k]) ∧ (t.sp.val ≤ s.sp.val → t.stack = s.stack)

theorem movesStack_of_same (hsp : t.sp = s.sp) (hstack : t.stack = s.stack) : MovesStackByOneEntry s t :=
  ⟨by rw [hsp]; omega, by rw [hsp]; omega, fun k _ => by rw [hstack], fun _ => hstack⟩

theorem movesStack_of_push {w : Word} (h : s.push w = some t) : MovesStackByOneEntry s t := by
  obtain ⟨-, hsp, -, hstack⟩ := push_eq_some h
  exact ⟨by omega, by omega, fun k hk => (hstack k).trans (if_neg hk), fun hle => by omega⟩

theorem movesStack_of_pop {w : Word} (h : s.pop = some (w, t)) : MovesStackByOneEntry s t := by
  obtain ⟨-, hsp, ht, -⟩ := pop_eq_some h
  have hstack : t.stack = s.stack := by rw [ht]
  exact ⟨by omega, by omega, fun k _ => by rw [hstack], fun _ => hstack⟩

theorem MovesStackByOneEntry.setPc (h : MovesStackByOneEntry s t) (w : Word) : MovesStackByOneEntry s (t.setPc w) := h

theorem exec_movesStack (h : exec i s = .next t) : MovesStackByOneEntry s t := by
  cases i with
  | ret =>
    simp only [exec, execRet] at h
    split at h <;> cases h
    case h_1 hpop => exact (movesStack_of_pop hpop).setPc _
    case h_2 => exact movesStack_of_same rfl rfl
  | call nnn =>
    simp only [exec, execCall] at h
    split at h <;> cases h
    case h_1 hpush => exact (movesStack_of_push hpush).setPc _
    case h_2 => exact movesStack_of_same rfl rfl
  | _ =>
    obtain ⟨cause, -, rfl⟩ | ⟨u, hu, hm⟩ := exec_effect h
    · exact movesStack_of_same rfl rfl
    · obtain ⟨w, rfl⟩ := hm.exists_setPc
      exact movesStack_of_same (hu.sp rfl) (hu.stack rfl)

theorem step_movesStack (h : step s = .next t) : MovesStackByOneEntry s t := by
  obtain ⟨-, rfl⟩ | ⟨-, e, -, rfl⟩ | ⟨-, w, -, -, rfl⟩ | ⟨-, w, i, -, -, hexec⟩ := step_cases h
  · exact movesStack_of_same rfl rfl
  · exact movesStack_of_same rfl rfl
  · exact movesStack_of_same rfl rfl
  · exact exec_movesStack hexec

/-! ### Every STEP -/

theorem step_answers_next (s : State) : ∃ t, step s = .next t := by
  cases hrun : s.halted with
  | true => exact ⟨s, step_halted hrun⟩
  | false =>
    cases hf : fetch s with
    | error e => exact ⟨_, step_fetchFault hrun hf⟩
    | ok w =>
      cases hd : decodeFamily w with
      | none => exact ⟨_, step_unknown hrun hf hd⟩
      | some i =>
        obtain ⟨t, ht, -⟩ := exec_completes i s
        exact ⟨t, (step_exec hrun hf (decodeWord_eq_ok_iff.2 hd)).trans ht⟩

end

end Sys2Proof.Machine

open Sys2Proof Sys2Proof.Machine Sys2Proof.Safety

/-- Settles O44: an instruction takes a fatal fault and does nothing else, or changes only what it is a writer of and moves PC. -/
theorem eachElementHasItsWriters : Obligations.EachElementHasItsWriters := by
  intro i s t h
  have hdisplay (hi : mayWriteDisplay i = false) : SameDisplay s t := exec_sameDisplay hi h
  have hlatches := exec_latches h
  obtain ⟨cause, -, rfl⟩ | ⟨u, hu, hm⟩ := exec_effect h
  · exact ⟨fun _ _ => rfl, fun _ => rfl, fun _ => rfl, fun _ => rfl, fun _ => rfl, fun _ => rfl, hdisplay, fun _ _ => rfl,
      fun _ _ _ => rfl, rfl, rfl, rfl, fun _ _ => rfl, hlatches⟩
  · obtain ⟨w, rfl⟩ := hm.exists_setPc
    exact ⟨hu.reg, hu.index, hu.stack, hu.sp, hu.delay, hu.sound, hdisplay, hu.sameBytes,
      fun hwf _ => hu.readByte_of_not_storesAt hwf, hu.key, hu.beep, hu.font, hu.draws, hlatches⟩

/-- Settles O26: the clause of O44 on the V registers. -/
theorem registersChangeOnlyAsNamed : Obligations.RegistersChangeOnlyAsNamed := by
  intro i s t k h
  obtain ⟨hreg, -⟩ := eachElementHasItsWriters i s t h
  exact hreg k

/-- Settles O34: the clause of O44 on the bytes, and a fatal fault leaves every byte. -/
theorem storesTouchOnlyTheirBytes : Obligations.StoresTouchOnlyTheirBytes := by
  intro i s t hwf hrun h
  obtain ⟨-, -, -, -, -, -, -, -, hbytes, -⟩ := eachElementHasItsWriters i s t h
  refine ⟨hbytes hwf, fun hhalt => ?_⟩
  obtain ⟨cause, -, rfl⟩ := exec_fatal_of_halted h hrun hhalt
  exact fun _ => rfl

/-- Settles O10: every instruction answers a next state, and so does each of the other three ways a STEP can go. -/
theorem everyStepAnswersNext : Obligations.EveryStepAnswersNext := by
  refine ⟨step_answers_next, fun i s => ?_⟩
  obtain ⟨t, ht, -⟩ := exec_completes i s
  exact ⟨t, ht⟩

/-- Settles O11: a STEP halts a running machine by a fetch fault or by a fault of the instruction. -/
theorem fatalStepsArePrecise : Obligations.FatalStepsArePrecise := by
  intro s t h hrun hhalt
  obtain ⟨-, rfl⟩ | ⟨-, e, hfetch, rfl⟩ | ⟨-, w, -, -, rfl⟩ | ⟨-, w, i, -, -, hexec⟩ := step_cases h
  · exact absurd (hrun.symm.trans hhalt) Bool.false_ne_true
  · exact ⟨e, fetch_error hfetch, rfl⟩
  · exact absurd (hrun.symm.trans hhalt) Bool.false_ne_true
  · exact exec_fatal_of_halted hexec hrun hhalt

/-- Settles O12: a fatal fault keeps PC, and without a rule of its own an instruction ends in the advance of R84. -/
theorem plainInstructionsAdvanceByTwo : Obligations.PlainInstructionsAdvanceByTwo := by
  intro i s t hi hrun h
  obtain ⟨cause, -, rfl⟩ | ⟨u, hu, hm⟩ := exec_effect h
  · exact ⟨fun hnot => (by cases hnot), fun _ => rfl⟩
  · obtain rfl := hm.eq_advance hi
    refine ⟨fun _ => by rw [advance_pc, hu.pc, pc_add_two_toNat], fun hhalt => ?_⟩
    rw [advance_halted, hu.halted, hrun] at hhalt
    cases hhalt

/-- Settles O13: a fatal fault keeps PC, and an instruction that does not load PC moves it by an even amount. -/
theorem evenPcStaysEvenWithoutJumps : Obligations.EvenPcStaysEvenWithoutJumps := by
  intro i s t h heven hjp hcall hjpV0 hret
  have hi : loadsPc i = false := by
    cases i with
    | jp nnn => exact absurd rfl (hjp nnn)
    | call nnn => exact absurd rfl (hcall nnn)
    | jpV0 nnn => exact absurd rfl (hjpV0 nnn)
    | ret => exact absurd rfl hret
    | _ => rfl
  obtain ⟨cause, -, rfl⟩ | ⟨u, hu, hm⟩ := exec_effect h
  · exact heven
  · exact hm.even hi (hu.pc ▸ heven)

/-- Settles O57: only 2NNN and 00EE write SP or STACK, by one push and one pop. -/
theorem stepMovesTheStackByOneEntry : Obligations.StepMovesTheStackByOneEntry := fun _ _ => step_movesStack
end

section
/-! SUPPORT. What the commands do to memory and to the latches HALTED and LAST_ERROR (R41, R210 to R213, R230, R238): every store of
a command but RESET lies in the program region, and every error it records sets HALTED exactly when its cause is fatal. -/

namespace Sys2Proof.Machine

open Sys2Proof.Safety

/-! ### The cells a write lists -/

theorem Mem.mem_of_mem_put {u b : Byte} {a : Nat} {cell : Host.Cell} {m : List Host.Cell} (h : cell ∈ Mem.put u a b m) :
    cell.1 = a ∨ cell ∈ m := by
  induction m with
  | nil =>
    simp only [Mem.put] at h
    split at h
    · exact .inr h
    · exact .inl (List.mem_singleton.1 h ▸ rfl)
  | cons c m ih =>
    simp only [Mem.put] at h
    split at h
    · split at h
      · exact .inr h
      · exact (List.mem_cons.1 h).imp_left (congrArg Prod.fst)
    · split at h
      · split at h
        · exact .inr (List.mem_cons_of_mem _ h)
        · exact (List.mem_cons.1 h).imp (congrArg Prod.fst) (List.mem_cons_of_mem _)
      · obtain rfl | hm := List.mem_cons.1 h
        · exact .inr List.mem_cons_self
        · exact (ih hm).imp_right (List.mem_cons_of_mem _)

section
variable {s t u : State}

theorem lowCellsUntouched_putBytes {a : Nat} {bs : List Byte} (h : lowCellsUntouched s) (ha : 0x200 ≤ a) :
    lowCellsUntouched (s.putBytes a bs) := by
  induction bs generalizing s a with
  | nil => exact h
  | cons b bs ih =>
    refine ih (fun cell hcell => ?_) (Nat.le_succ_of_le ha)
    obtain rfl | hold := Mem.mem_of_mem_put hcell
    · exact ha
    · exact h cell hold

/-! ### Stores in the program region -/

/-- Memory is as before, or has taken bytes that lie in the program region (R41, R44, R211). -/
def WritesProgram (s t : State) : Prop :=
  t.font = s.font ∧ (t.mem = s.mem ∨
    ∃ (a : Nat) (bs : List Byte), 0x200 ≤ a ∧ a + bs.length ≤ 0x1000 ∧ t.mem = (s.putBytes a bs).mem)

theorem putBytes_font (s : State) (a : Nat) (bs : List Byte) : (s.putBytes a bs).font = s.font := by
  rw [putBytes_eq]

theorem WritesProgram.memWf (h : WritesProgram s t) (hwf : s.memWf = true) : t.memWf = true := by
  obtain ⟨hfont, hmem | ⟨a, bs, -, hhi, hmem⟩⟩ := h
  · rwa [State.memWf, hmem, hfont]
  · rw [State.memWf, hmem, hfont, ← putBytes_font s a bs]
    exact putBytes_memWf hwf hhi

theorem WritesProgram.readByte_low (h : WritesProgram s t) (hwf : s.memWf = true) {a : Nat} (ha : a < 0x200) :
    t.readByte a = s.readByte a := by
  obtain ⟨hfont, hmem | ⟨b, bs, hlo, hhi, hmem⟩⟩ := h
  · exact readByte_congr hmem hfont a
  · rw [readByte_congr hmem (hfont.trans (putBytes_font s b bs).symm),
      readByte_putBytes_outside hwf hhi (.inl (Nat.lt_of_lt_of_le ha hlo))]

theorem WritesProgram.lowCellsUntouched (h : WritesProgram s t) (hlow : lowCellsUntouched s) : lowCellsUntouched t := by
  obtain ⟨-, hmem | ⟨a, bs, hlo, -, hmem⟩⟩ := h <;> rw [Safety.lowCellsUntouched, hmem]
  · exact hlow
  · exact lowCellsUntouched_putBytes hlow hlo

theorem writesProgram_of_same (hmem : t.mem = s.mem) (hfont : t.font = s.font) : WritesProgram s t := ⟨hfont, .inl hmem⟩

theorem writesProgram_putBytes {a : Nat} {bs : List Byte} (hlo : 0x200 ≤ a) (hhi : a + bs.length ≤ 0x1000) :
    WritesProgram s (s.putBytes a bs) :=
  ⟨putBytes_font s a bs, .inr ⟨a, bs, hlo, hhi, rfl⟩⟩

theorem WrittenOnlyBy.writesProgram {i : Instr} (h : WrittenOnlyBy i s t) : WritesProgram s t :=
  ⟨h.font, h.mem.imp_right fun ⟨_, bs, hlo, hhi, hmem, _⟩ => ⟨indexBase s, bs, hlo, hhi, hmem⟩⟩

theorem exec_writesProgram {i : Instr} (h : exec i s = .next t) : WritesProgram s t := by
  obtain ⟨cause, -, rfl⟩ | ⟨u, hu, hm⟩ := exec_effect h
  · exact writesProgram_of_same rfl rfl
  · obtain ⟨w, rfl⟩ := hm.exists_setPc
    exact hu.writesProgram

theorem step_writesProgram (h : step s = .next t) : WritesProgram s t := by
  obtain ⟨-, rfl⟩ | ⟨-, e, -, rfl⟩ | ⟨-, w, -, -, rfl⟩ | ⟨-, w, i, -, -, hexec⟩ := step_cases h
  · exact writesProgram_of_same rfl rfl
  · exact writesProgram_of_same rfl rfl
  · exact writesProgram_of_same rfl rfl
  · exact exec_writesProgram hexec

/-! ### LOAD of a program that fits (R211) -/

section
variable {bytes : List Byte}

theorem hostLoad_fits (s : State) (h : bytes.length ≤ maxProgram) : s.hostLoad bytes = s.putBytes 0x200 bytes :=
  if_neg (Nat.not_lt.2 h)

theorem program_end_le (h : bytes.length ≤ maxProgram) : 0x200 + bytes.length ≤ 0x1000 := by
  rw [maxProgram] at h
  omega

end

theorem hostLoad_cases (s : State) (bytes : List Byte) :
    (bytes.length ≤ maxProgram ∧ s.hostLoad bytes = s.putBytes 0x200 bytes) ∨
    s.hostLoad bytes = s.recordError (.romTooLarge bytes.length) := by
  obtain h | h := Nat.lt_or_ge maxProgram bytes.length
  · exact .inr (hostLoad_tooLarge s h)
  · exact .inl ⟨h, hostLoad_fits s h⟩

theorem hostLoad_writesProgram (s : State) (bytes : List Byte) : WritesProgram s (s.hostLoad bytes) := by
  obtain ⟨hfit, heq⟩ | heq := hostLoad_cases s bytes <;> rw [heq]
  · exact writesProgram_putBytes (Nat.le_refl _) (program_end_le hfit)
  · exact writesProgram_of_same rfl rfl

/-- R41: every command but RESET stores in the program region only. -/
theorem perform_writesProgram {c : Command} (hc : c ≠ .reset) (h : perform c s = .next t) : WritesProgram s t := by
  cases c with
  | reset => exact absurd rfl hc
  | load bytes => cases h; exact hostLoad_writesProgram s bytes
  | step => exact step_writesProgram h
  | tick | setKey | clearDirty => cases h; exact writesProgram_of_same rfl rfl

/-! ### HALTED and LAST_ERROR (R22, R23, R230, R238) -/

/-- The latches are as before, or a new record stands in LAST_ERROR and HALTED has been set exactly if its cause is fatal. -/
def LatchStep (s t : State) : Prop :=
  (t.halted = s.halted ∧ t.lastError = s.lastError) ∨
    ∃ r : ErrorRecord, t.lastError = some r ∧ t.halted = (s.halted || r.cause.fatal)

theorem LatchStep.keeps_halted (h : LatchStep s t) (hs : s.halted = true) : t.halted = true := by
  obtain ⟨hhalt, -⟩ | ⟨r, -, hhalt⟩ := h <;> rw [hhalt, hs]
  rfl

theorem LatchStep.keeps_error (h : LatchStep s t) (hs : s.lastError ≠ none) : t.lastError ≠ none := by
  obtain ⟨-, herr⟩ | ⟨r, herr, -⟩ := h <;> rw [herr]
  · exact hs
  · exact Option.some_ne_none r

theorem LatchStep.latchesAgree (h : LatchStep s t) (hs : latchesAgree s) : latchesAgree t := by
  obtain ⟨hhalt, herr⟩ | ⟨r, herr, hhalt⟩ := h <;> rw [Safety.latchesAgree, herr, hhalt]
  · exact hs
  · refine ⟨fun _ => ⟨r, rfl⟩, fun r' hr' hfatal => ?_⟩
    cases hr'
    rw [hfatal, Bool.or_true]

theorem latchStep_enterFatal {e : ErrorCause} (s : State) (he : e.fatal = true) : LatchStep s (s.enterFatal e) :=
  .inr ⟨⟨e, s.pc⟩, rfl, by rw [he, Bool.or_true, enterFatal_halted]⟩

theorem latchStep_recordError {e : ErrorCause} (s : State) (he : e.fatal = false) : LatchStep s (s.recordError e) :=
  .inr ⟨⟨e, s.pc⟩, rfl, by rw [he, Bool.or_false, recordError_halted]⟩

theorem step_latchStep (h : step s = .next t) : LatchStep s t := by
  obtain ⟨-, rfl⟩ | ⟨-, e, hfetch, rfl⟩ | ⟨-, w, -, -, rfl⟩ | ⟨-, w, i, -, -, hexec⟩ := step_cases h
  · exact .inl ⟨rfl, rfl⟩
  · exact latchStep_enterFatal s (fetch_error hfetch)
  · exact latchStep_recordError s rfl
  · obtain ⟨cause, hfatal, rfl⟩ | hsame := exec_latches hexec
    · exact latchStep_enterFatal s hfatal
    · exact .inl hsame

theorem hostLoad_latchStep (s : State) (bytes : List Byte) : LatchStep s (s.hostLoad bytes) := by
  obtain ⟨-, heq⟩ | heq := hostLoad_cases s bytes <;> rw [heq]
  · rw [putBytes_eq]
    exact .inl ⟨rfl, rfl⟩
  · exact latchStep_recordError s rfl

theorem perform_latchStep {c : Command} (hc : c ≠ .reset) (h : perform c s = .next t) : LatchStep s t := by
  cases c with
  | reset => exact absurd rfl hc
  | load bytes => cases h; exact hostLoad_latchStep s bytes
  | step => exact step_latchStep h
  | tick | setKey | clearDirty => cases h; exact .inl ⟨rfl, rfl⟩

/-! ### The invariant, kept by every command and by every schedule -/

theorem perform_inv_of_ne_reset {c : Command} (hc : c ≠ .reset) (h : perform c s = .next t) (hs : Inv s) : Inv t := by
  obtain ⟨hwf, hlow, hlatch⟩ := hs
  have hstore := perform_writesProgram hc h
  exact ⟨hstore.memWf hwf, hstore.lowCellsUntouched hlow, (perform_latchStep hc h).latchesAgree hlatch⟩

/-- The state after RESET meets the invariant whatever came before: nothing is listed and no latch is set. -/
theorem inv_hostReset (s : State) : Inv s.hostReset :=
  ⟨rfl, fun _ hcell => absurd hcell List.not_mem_nil, fun h => (by cases h), fun r h => (by cases h)⟩

theorem perform_answers_next (c : Command) (s : State) : ∃ t, perform c s = .next t := by
  cases c with
  | step => exact step_answers_next s
  | reset | load | tick | setKey | clearDirty => exact ⟨_, rfl⟩

theorem perform_inv {c : Command} (h : perform c s = .next t) (hs : Inv s) : Inv t := by
  by_cases hc : c = .reset
  · subst hc
    cases h
    exact inv_hostReset s
  · exact perform_inv_of_ne_reset hc h hs

theorem runCommands_cons {c : Command} (cs : List Command) (h : perform c s = .next t) :
    runCommands (c :: cs) s = runCommands cs t := by
  simp only [runCommands, h]

theorem runCommands_inv (cs : List Command) (hs : Inv s) : ∃ t, runCommands cs s = .next t ∧ Inv t := by
  induction cs generalizing s with
  | nil => exact ⟨s, rfl, hs⟩
  | cons c cs ih =>
    obtain ⟨t, ht⟩ := perform_answers_next c s
    rw [runCommands_cons cs ht]
    exact ih (perform_inv ht hs)

/-- R41: along a schedule without RESET the list stays canonical, so each command leaves the bytes below 0x200. -/
theorem runCommands_readByte_low {cs : List Command} {a : Nat} (hwf : s.memWf = true) (hcs : .reset ∉ cs)
    (h : runCommands cs s = .next t) (ha : a < 0x200) : t.readByte a = s.readByte a := by
  induction cs generalizing s with
  | nil => cases h; rfl
  | cons c cs ih =>
    obtain ⟨u, hu⟩ := perform_answers_next c s
    have hstore := perform_writesProgram (List.ne_of_not_mem_cons hcs).symm hu
    rw [runCommands_cons cs hu] at h
    rw [ih (hstore.memWf hwf) (List.not_mem_of_not_mem_cons hcs) h, hstore.readByte_low hwf ha]

end

end Sys2Proof.Machine

open Sys2Proof Sys2Proof.Machine Sys2Proof.Safety

/-- Settles O54: a STEP stores in the program region only, and records a fatal error exactly when it halts. -/
theorem stepKeepsTheInvariant : Obligations.StepKeepsTheInvariant := fun _ _ hs h =>
  perform_inv (c := .step) h hs

/-- Settles O55, by induction on the schedule: every command answers a next state and keeps the invariant. -/
theorem everySchedulePreservesTheInvariant : Obligations.EverySchedulePreservesTheInvariant := fun cs _ =>
  runCommands_inv cs

/-- Settles O56, by induction on the schedule, with canonical memory carried along. -/
theorem lowMemoryIsReadOnly : Obligations.LowMemoryIsReadOnly := fun _ _ _ _ => runCommands_readByte_low

/-- Settles O53: the power-on state is its own RESET. -/
theorem resetMeetsTheInvariant : Obligations.ResetMeetsTheInvariant :=
  ⟨inv_hostReset State.reset, fun s => ⟨_, rfl, inv_hostReset s⟩⟩

/-- Settles O51: the commands but RESET only add to the latches, and RESET clears them. -/
theorem onlyResetClearsHaltAndError : Obligations.OnlyResetClearsHaltAndError := by
  refine ⟨fun c s t h hc => ?_, fun s => ⟨_, rfl, rfl, rfl⟩⟩
  have hlatch := perform_latchStep hc h
  exact ⟨hlatch.keeps_halted, hlatch.keeps_error⟩

end

section
/-! SUPPORT. The canonical list (R25, R40; log entry 6): it is determined by the bytes it makes the cells read as. -/

namespace Sys2Proof.Machine

open Sys2Proof.Safety

section
variable {font : Vector Byte 80} {m m' : List Host.Cell}

/-- A listed byte differs from what its cell reads as unlisted, and lists a cell of `MEM`. -/
theorem Mem.find_eq_some {lo a : Nat} {b : Byte} (h : Mem.wfFrom font lo m = true) (hf : Mem.find a m = some b) :
    a < 4096 ∧ b ≠ unlistedByte font a := by
  induction m generalizing lo with
  | nil => cases hf
  | cons c m ih =>
    obtain ⟨-, hk, hb, hm⟩ := Mem.wfFrom_cons.1 h
    simp only [Mem.find] at hf
    split at hf
    · cases hf
    · split at hf
      case isTrue ha => cases hf; exact ha ▸ ⟨hk, hb⟩
      case isFalse => exact ih hm hf

/-- Lists that make the cells read alike list the same bytes. -/
theorem Mem.find_congr {lo lo' a : Nat} (h : Mem.wfFrom font lo m = true) (h' : Mem.wfFrom font lo' m' = true)
    (hread : a < 4096 → (Mem.find a m).getD (unlistedByte font a) = (Mem.find a m').getD (unlistedByte font a)) :
    Mem.find a m = Mem.find a m' := by
  cases hf : Mem.find a m with
  | none =>
    cases hf' : Mem.find a m' with
    | none => rfl
    | some b' =>
      obtain ⟨ha, hb⟩ := Mem.find_eq_some h' hf'
      rw [hf, hf'] at hread
      exact absurd (hread ha).symm hb
  | some b =>
    obtain ⟨ha, hb⟩ := Mem.find_eq_some h hf
    cases hf' : Mem.find a m' with
    | none =>
      rw [hf, hf'] at hread
      exact absurd (hread ha) hb
    | some b' =>
      rw [hf, hf'] at hread
      exact congrArg some (hread ha)

theorem Mem.find_head (k : Nat) (b : Byte) (m : List Host.Cell) : Mem.find k ((k, b) :: m) = some b := by
  simp [Mem.find]

theorem Mem.find_tail {k a : Nat} (b : Byte) (m : List Host.Cell) (ha : k < a) :
    Mem.find a ((k, b) :: m) = Mem.find a m := by
  simp [Mem.find, show ¬ a < k by omega, show ¬ a = k by omega]

/-- Canonical lists that list the same byte at every address are one list: the heads have the least listed address. -/
theorem Mem.eq_of_find_eq : ∀ {m m' : List Host.Cell} {lo lo' : Nat}, Mem.wfFrom font lo m = true →
    Mem.wfFrom font lo' m' = true → (∀ a, Mem.find a m = Mem.find a m') → m = m'
  | [], [], _, _, _, _, _ => rfl
  | [], (k, b) :: m', _, _, _, _, hfind => by
    have h := hfind k
    rw [Mem.find_head] at h
    cases h
  | (k, b) :: m, [], _, _, _, _, hfind => by
    have h := hfind k
    rw [Mem.find_head] at h
    cases h
  | (k, b) :: m, (k', b') :: m', _, _, h, h', hfind => by
    obtain ⟨-, -, -, hm⟩ := Mem.wfFrom_cons.1 h
    obtain ⟨-, -, -, hm'⟩ := Mem.wfFrom_cons.1 h'
    have hk := hfind k
    have hk' := hfind k'
    rw [Mem.find_head] at hk hk'
    obtain hlt | rfl | hlt := Nat.lt_trichotomy k k'
    · simp [Mem.find, hlt] at hk
    · rw [Mem.find_head] at hk
      cases hk
      refine congrArg _ (Mem.eq_of_find_eq hm hm' fun a => ?_)
      obtain ha | ha := Nat.lt_or_ge k a
      · have htail := hfind a
        rwa [Mem.find_tail b m ha, Mem.find_tail b m' ha] at htail
      · rw [Mem.find_eq_none hm (Nat.lt_succ_of_le ha), Mem.find_eq_none hm' (Nat.lt_succ_of_le ha)]
    · simp [Mem.find, hlt] at hk'

end

end Sys2Proof.Machine

open Sys2Proof Sys2Proof.Machine Sys2Proof.Safety

/-- Settles O35: memories that read alike list the same byte at every address, and a rising list is determined by what it lists. -/
theorem canonicalMemoriesThatReadAlikeAreEqual : Obligations.CanonicalMemoriesThatReadAlikeAreEqual := by
  intro s t hs ht hfont hread
  rw [State.memWf, ← hfont] at ht
  refine Mem.eq_of_find_eq hs ht fun a => Mem.find_congr hs ht fun ha => ?_
  have h := hread a
  rw [State.readByte, State.readByte, if_pos ha, if_pos ha, ← hfont] at h
  exact (Option.some.inj h).symm
end

section
/-! SUPPORT. The host's commands (R210 to R213, R242, R260, R261). -/

namespace Sys2Proof.Machine

open Sys2Proof.Safety

/-! ### The keypad (R20, R212) -/

theorem keyDown_setKey_same (s : State) (k : Nibble) (p : Bool) : (s.setKey k p).keyDown k = p := by
  simp [State.keyDown]

theorem keyDown_setKey_other (s : State) {j k : Nibble} (p : Bool) (h : j ≠ k) : (s.setKey j p).keyDown k = s.keyDown k := by
  have hne : j.toNat ≠ k.toNat := fun e => h (BitVec.eq_of_toNat_eq e)
  simp [State.keyDown, hne]

section
variable {s t : State}

theorem step_key (h : step s = .next t) : t.key = s.key := by
  obtain ⟨-, rfl⟩ | ⟨-, e, -, rfl⟩ | ⟨-, w, -, -, rfl⟩ | ⟨-, w, i, -, -, hexec⟩ := step_cases h
  · rfl
  · rfl
  · rfl
  · obtain ⟨cause, -, rfl⟩ | ⟨u, hu, hm⟩ := exec_effect hexec
    · rfl
    · obtain ⟨w, rfl⟩ := hm.exists_setPc
      exact hu.key

/-- R210, R231: LOAD writes MEM and LAST_ERROR and nothing else. -/
theorem hostLoad_frame (s : State) (bytes : List Byte) :
    s.hostLoad bytes = { s with mem := (s.hostLoad bytes).mem, lastError := (s.hostLoad bytes).lastError } := by
  obtain ⟨-, heq⟩ | heq := hostLoad_cases s bytes <;> rw [heq]
  · rw [putBytes_eq]
  · rfl

theorem perform_keyDown {c : Command} {k : Nibble} (h : perform c s = .next t) (hc : ∀ p, c ≠ .setKey k p) :
    t.keyDown k = s.keyDown k := by
  cases c with
  | load bytes => cases h; rw [hostLoad_frame]; rfl
  | step => simp only [State.keyDown, step_key h]
  | setKey j p =>
    cases h
    exact keyDown_setKey_other s p fun e => hc p (e ▸ rfl)
  | reset | tick | clearDirty => cases h; rfl

end

/-! ### The timers (R17, R242) -/

theorem countDown_toNat (b : Byte) : (countDown b).toNat = b.toNat - 1 := by
  unfold countDown
  split
  case isTrue h => rw [h]; rfl
  case isFalse h =>
    have hpos : 1 ≤ b.toNat := Nat.one_le_iff_ne_zero.2 fun e => h (BitVec.eq_of_toNat_eq e)
    exact BitVec.toNat_sub_of_le hpos

/-! ### RESET (R260) -/

/-- R41, R42: after RESET a cell reads as an unlisted one does. -/
theorem hostReset_readByte (s : State) {a : Nat} (ha : a < 4096) :
    s.hostReset.readByte a = some (unlistedByte s.font a) :=
  if_pos ha

end Sys2Proof.Machine

open Sys2Proof Sys2Proof.Machine Sys2Proof.Safety

/-- Settles O48: a program that fits is written byte by byte from 0x200 on. -/
theorem loadPlacesTheProgram : Obligations.LoadPlacesTheProgram := by
  intro s bytes hwf hlen
  have hend := program_end_le hlen
  refine ⟨if_neg (Nat.not_lt.2 hlen), s.putBytes 0x200 bytes, congrArg _ (hostLoad_fits s hlen),
    fun k => readByte_putBytes_inside hwf hend, fun a => readByte_putBytes_outside hwf hend, putBytes_eq s _ bytes⟩

/-- Settles O50: SET_KEY writes one key, and no other command writes KEY. -/
theorem keysChangeOnlyBySetKey : Obligations.KeysChangeOnlyBySetKey :=
  ⟨fun _ _ _ _ h hc => perform_keyDown h hc, fun s k p => ⟨_, rfl, keyDown_setKey_same s k p, rfl⟩⟩

/-- Settles O58: each of the four commands writes only elements outside the list. -/
theorem hostMovesTouchNoRegister : Obligations.HostMovesTouchNoRegister := by
  intro c s t hstep hreset h
  cases c with
  | step => exact absurd rfl hstep
  | reset => exact absurd rfl hreset
  | load bytes =>
    cases h
    rw [hostLoad_frame]
    exact ⟨fun _ => rfl, rfl, rfl, rfl, rfl, rfl, rfl, rfl, rfl⟩
  | tick | setKey | clearDirty =>
    cases h
    exact ⟨fun _ => rfl, rfl, rfl, rfl, rfl, rfl, rfl, rfl, rfl⟩

/-- Settles O45: both timers are counted down, and the beep is the test on the old ST. -/
theorem tickCountsDownAndBeepsOnOne : Obligations.TickCountsDownAndBeepsOnOne := by
  intro s
  refine ⟨s.hostTick, rfl, countDown_toNat s.dt, countDown_toNat s.st, ?_, rfl, rfl⟩
  exact beq_iff_eq.trans BitVec.toNat_inj.symm

/-- Settles O46: RESET answers the reset state with the old keys, and all its vectors are constant. -/
theorem resetLeavesTheStatedValues : Obligations.ResetLeavesTheStatedValues := by
  intro s
  refine ⟨s.hostReset, rfl, fun a ha => ?_, fun a hlo hhi => ?_, fun k => ?_, fun k => ?_, fun index => cell_clear _ _,
    rfl, rfl, rfl, rfl, rfl, rfl, rfl, rfl, rfl, rfl, rfl⟩
  · rw [hostReset_readByte s (by omega), unlistedByte, dif_pos ha]
  · rw [hostReset_readByte s hhi, unlistedByte, dif_neg (by omega)]
  · exact Vector.getElem_replicate k.isLt
  · exact Vector.getElem_replicate k.isLt

/-- Settles O47: RESET keeps the keys, the font and the count of draws, and these are the power-on state's. -/
theorem powerOnIsAResetWithKeysUp : Obligations.PowerOnIsAResetWithKeysUp := by
  have hreset (k : Nibble) : State.reset.keyDown k = false := Vector.getElem_replicate k.isLt
  refine ⟨hreset, fun s hkeys hfont hdraws => ?_⟩
  have hkey : s.key = State.reset.key := by
    ext k hk
    have hs := hkeys (BitVec.ofNat 4 k)
    rw [← hreset (BitVec.ofNat 4 k)] at hs
    simpa [State.keyDown, Nat.mod_eq_of_lt hk] using hs
  show Host.Outcome.next s.hostReset = _
  rw [State.hostReset, hkey, hfont, hdraws]
end

section
/-! SUPPORT. The STEP (R80, R81, R86, R87): what it returns on each of the four ways it can go, and when FX0A waits (R192). -/

namespace Sys2Proof.Machine

open Sys2Proof.Safety

section
variable {s t : State} {w : Word} {i : Instr}

/-! ### FX0A with no key down (R192) -/

theorem waits_iff : waits i s = true ↔ (∃ x, i = .ldVxK x) ∧ ∀ k, s.keyDown k = false := by
  cases i with
  | ldVxK x => simp [waits, pressedKeys_eq_nil]
  | _ => simp [waits]

theorem exec_ldVxK_no_key (x : Nibble) (h : ∀ k, s.keyDown k = false) : exec (.ldVxK x) s = .next s := by
  simp only [exec, execLdVxK, pressedKeys_eq_nil.2 h]

theorem exec_of_waits (h : waits i s = true) : exec i s = .next s := by
  obtain ⟨⟨x, rfl⟩, hkeys⟩ := waits_iff.1 h
  exact exec_ldVxK_no_key x hkeys

theorem atKeyWait_iff (hf : fetch s = .ok w) (hd : decodeWord w = .ok i) : AtKeyWait s ↔ waits i s = true := by
  rw [waits_iff, AtKeyWait]
  constructor
  · rintro ⟨w', x, hf', hd', hkeys⟩
    cases hf.symm.trans hf'
    cases hd.symm.trans hd'
    exact ⟨⟨x, rfl⟩, hkeys⟩
  · rintro ⟨⟨x, rfl⟩, hkeys⟩
    exact ⟨w, x, hf, hd, hkeys⟩

/-! ### The outcome STEP returns (R87) -/

theorem stepReply_halted (h : s.halted = true) : stepReply s = .haltedNoop := if_pos h

theorem stepReply_fetchFault {e : ErrorCause} (h : s.halted = false) (hf : fetch s = .error e) : stepReply s = .fatal := by
  simp [stepReply, h, hf]

theorem stepReply_unknown (h : s.halted = false) (hf : fetch s = .ok w) (hd : decodeFamily w = none) :
    stepReply s = .unknown := by
  simp [stepReply, h, hf, decodeWord, hd]

theorem stepReply_exec (h : s.halted = false) (hf : fetch s = .ok w) (hd : decodeWord w = .ok i) (he : exec i s = .next t) :
    stepReply s = if t.halted then .fatal else if waits i s then .waiting else .ok := by
  simp [stepReply, h, hf, hd, executeReply, he]

/-- The word that was fetched is unrecognised, or is not, whichever fetch one names. -/
theorem fetched_unrecognised_iff (hf : fetch s = .ok w) :
    (∃ w', fetch s = .ok w' ∧ Word.recognised w' = false) ↔ Word.recognised w = false := by
  simp [hf]

end

end Sys2Proof.Machine

open Sys2Proof Sys2Proof.Machine Sys2Proof.Safety

/-- Settles O7: the word the fetch makes of the two bytes is the one that decodes to `i`. -/
theorem stepRunsTheDecodedInstruction : Obligations.StepRunsTheDecodedInstruction := by
  intro s hi lo i rest hrun hhi hlo hdec
  exact step_exec hrun (fetch_of_readByte hhi hlo) (decode_cons_cons_eq_ok_iff.1 hdec).1

/-- Settles O8: the decoder has no branch for an unrecognised word, and STEP then records it and advances. -/
theorem unknownWordIsSkippedAndRecorded : Obligations.UnknownWordIsSkippedAndRecorded := by
  intro s hi lo w hrun hhi hlo hw hrec
  have hword : wordOfBytes hi lo = w := BitVec.eq_of_toNat_eq (by rw [wordOfBytes_toNat, hw])
  have hfetch : fetch s = .ok w := hword ▸ fetch_of_readByte hhi hlo
  exact ⟨_, step_unknown hrun hfetch ((decodeFamily_eq_none_iff w).2 hrec), rfl, pc_add_two_toNat s, rfl⟩

/-- Settles O9: the halt gate comes first, then the fetch, which answers exactly while both cells at PC exist. -/
theorem fetchFaultsExactlyAboveMemory : Obligations.FetchFaultsExactlyAboveMemory := by
  intro s
  refine ⟨step_halted, fun hrun hpc => ?_, fun hpc => ?_⟩
  · exact step_fetchFault hrun ((fetch_eq s).trans (if_neg (Nat.not_le.2 hpc)))
  · obtain ⟨hi, hhi⟩ := readByte_isSome (s := s) (show s.pc.toNat < 4096 by omega)
    obtain ⟨lo, hlo⟩ := readByte_isSome (s := s) (show s.pc.toNat + 1 < 4096 by omega)
    exact ⟨hi, lo, _, hhi, hlo, fetch_of_readByte hhi hlo, wordOfBytes_toNat hi lo⟩

/-- Settles O14: a jump to PC writes PC with its own value, and FX0A with no key down writes nothing. -/
theorem endsOfRunAreFixpoints : Obligations.EndsOfRunAreFixpoints := by
  rintro s hrun (⟨w, nnn, hf, hd, hpc⟩ | ⟨w, x, hf, hd, hkeys⟩) <;> rw [step_exec hrun hf hd]
  · have hself : s.setPc (absolute nnn) = s := by rw [hpc]; rfl
    exact congrArg _ hself
  · exact exec_ldVxK_no_key x hkeys

/-- Settles O52: STEP goes one of four ways, and on each the outcome and the conditions are known. -/
theorem stepReplyTellsWhatHappened : Obligations.StepReplyTellsWhatHappened := by
  intro s t h
  obtain ⟨hhalt, rfl⟩ | ⟨hrun, e, hf, rfl⟩ | ⟨hrun, w, hf, hd, rfl⟩ | ⟨hrun, w, i, hf, hd, he⟩ := step_cases h
  · simp [stepReply_halted hhalt, hhalt]
  · simp [stepReply_fetchFault hrun hf, hrun, AtKeyWait, hf]
  · have hrec := (decodeFamily_eq_none_iff w).1 hd
    have hwait : ¬ AtKeyWait s := by
      rintro ⟨w', x, hf', hd', -⟩
      cases hf.symm.trans hf'
      rw [decodeWord_eq_ok_iff, hd] at hd'
      cases hd'
    simp [stepReply_unknown hrun hf hd, hrun, hf, hrec, hwait]
  · have hrec : Word.recognised w = true := (decodeWord_isOk_iff w).1 ⟨i, hd⟩
    rw [stepReply_exec hrun hf hd he, atKeyWait_iff hf hd, fetched_unrecognised_iff hf]
    cases hwaits : waits i s with
    | true =>
      rw [exec_of_waits hwaits] at he
      cases he
      simp [hrun, hrec]
    | false => cases ht : t.halted <;> simp [hrun, hrec]
end

section
/-! SUPPORT. The statements on control transfer (R101, R103, R108). -/

namespace Sys2Proof.Machine

/-- R103: NNN + V0 stays below 65536, so nothing is cut. -/
theorem v0Target_toNat (s : State) (nnn : BitVec 12) : (v0Target s nnn).toNat = nnn.toNat + (s.reg 0).toNat := by
  have hnnn := nnn.isLt
  have hv0 := (s.reg 0).isLt
  rw [v0Target, BitVec.toNat_add, absolute_toNat, BitVec.toNat_setWidth]
  omega

end Sys2Proof.Machine

open Sys2Proof Sys2Proof.Machine Sys2Proof.Safety

/-- Settles O18: the call pushes its own address below the new SP, and the return pops that entry. -/
theorem returnUndoesCall : Obligations.ReturnUndoesCall := by
  intro s t u nnn k hk hcall hsp hentry
  obtain ⟨c, hpush⟩ := push_of_lt s.pc (hk ▸ k.isLt)
  obtain ⟨-, hcsp, -, hcstack⟩ := push_eq_some hpush
  rw [exec_call_of_push nnn hpush] at hcall
  cases hcall
  have husp : u.sp.val = s.sp.val + 1 := (congrArg Fin.val hsp).trans hcsp
  obtain ⟨r, hpop⟩ := pop_of_pos (s := u) (by omega)
  obtain ⟨-, hrsp, -, -⟩ := pop_eq_some hpop
  have htop : u.stack[u.sp.val - 1] = s.pc := by
    have hpushed := (hcstack k).trans (if_pos hk)
    simp only [husp, Nat.add_sub_cancel, ← hk]
    exact hentry.trans hpushed
  rw [htop] at hpop
  exact ⟨_, exec_ret_of_pop hpop, pc_add_two_toNat s, Fin.ext (by rw [setPc_sp]; omega)⟩

/-- Settles O19: both jumps write PC alone. -/
theorem jumpsSetOnlyPc : Obligations.JumpsSetOnlyPc := fun s nnn =>
  ⟨⟨_, rfl, absolute_toNat nnn, fun _ => rfl, rfl⟩, ⟨_, rfl, v0Target_toNat s nnn, fun _ => rfl, rfl⟩⟩
end

section
/-! SUPPORT. The statements on arithmetic, logic, shifts and random (R121 to R133): each result as a number, each an equation of the
machine's byte operation. -/

namespace Sys2Proof.Machine

open Sys2Proof.Safety

section
variable (a b : Byte)

/-! ### Results (R121, R127 to R130) -/

theorem byte_add_eq_ofNat : a + b = BitVec.ofNat 8 (a.toNat + b.toNat) := by
  rw [BitVec.ofNat_add, BitVec.ofNat_toNat, BitVec.ofNat_toNat, BitVec.setWidth_eq, BitVec.setWidth_eq]

theorem byte_sub_eq_ofNat_mod : a - b = BitVec.ofNat 8 ((a.toNat + 256 - b.toNat) % 256) := by
  have hb := b.isLt
  apply BitVec.eq_of_toNat_eq
  rw [BitVec.toNat_sub, BitVec.toNat_ofNat]
  omega

theorem byte_ushiftRight_one_eq : a >>> 1 = BitVec.ofNat 8 (a.toNat / 2) := by
  have ha := a.isLt
  apply BitVec.eq_of_toNat_eq
  rw [BitVec.toNat_ushiftRight, BitVec.toNat_ofNat, Nat.shiftRight_eq_div_pow]
  omega

theorem byte_shiftLeft_one_eq : a <<< 1 = BitVec.ofNat 8 (a.toNat * 2 % 256) := by
  apply BitVec.eq_of_toNat_eq
  rw [BitVec.toNat_shiftLeft, BitVec.toNat_ofNat, Nat.shiftLeft_eq]
  omega

/-- R131: a mask of clear bits leaves nothing of a byte masked with their complement. -/
theorem masked_and_not : a &&& b &&& ~~~b = 0 := by
  rw [BitVec.and_assoc, BitVec.and_not_self]
  exact BitVec.and_zero

/-! ### Flags (R127 to R130, R151) -/

theorem noBorrowFlag_eq : noBorrowFlag a b = if a.toNat ≥ b.toNat then 1 else 0 := by
  simp only [noBorrowFlag, flagByte, decide_eq_true_eq]

theorem shiftedOutRight_eq : shiftedOutRight a = BitVec.ofNat 8 (a.toNat % 2) := by
  revert a
  decide

theorem shiftedOutLeft_eq : shiftedOutLeft a = BitVec.ofNat 8 (a.toNat / 128) := by
  revert a
  decide

theorem indexOverflowFlag_eq (w : Word) : indexOverflowFlag w b = if w.toNat + b.toNat > 0xFFF then 1 else 0 := by
  simp only [indexOverflowFlag, flagByte, decide_eq_true_eq]

end

/-! ### The instructions as their writing form -/

section
variable (s : State) (x y : Nibble)

theorem exec_addImm_eq (nn : Byte) :
    exec (.addImm x nn) s = writeReg x (BitVec.ofNat 8 ((s.reg x).toNat + nn.toNat)) s := by
  rw [← byte_add_eq_ofNat]
  rfl

theorem exec_subReg_eq :
    exec (.subReg x y) s = writeFlagged x (BitVec.ofNat 8 (((s.reg x).toNat + 256 - (s.reg y).toNat) % 256))
      (if (s.reg x).toNat ≥ (s.reg y).toNat then 1 else 0) s := by
  rw [← byte_sub_eq_ofNat_mod, ← noBorrowFlag_eq]
  rfl

theorem exec_subnReg_eq :
    exec (.subnReg x y) s = writeFlagged x (BitVec.ofNat 8 (((s.reg y).toNat + 256 - (s.reg x).toNat) % 256))
      (if (s.reg y).toNat ≥ (s.reg x).toNat then 1 else 0) s := by
  rw [← byte_sub_eq_ofNat_mod, ← noBorrowFlag_eq]
  rfl

theorem exec_shr_eq :
    exec (.shr x y) s = writeFlagged x (BitVec.ofNat 8 ((s.reg x).toNat / 2)) (BitVec.ofNat 8 ((s.reg x).toNat % 2)) s := by
  rw [← byte_ushiftRight_one_eq, ← shiftedOutRight_eq]
  rfl

theorem exec_shl_eq :
    exec (.shl x y) s =
      writeFlagged x (BitVec.ofNat 8 ((s.reg x).toNat * 2 % 256)) (BitVec.ofNat 8 ((s.reg x).toNat / 128)) s := by
  rw [← byte_shiftLeft_one_eq, ← shiftedOutLeft_eq]
  rfl

end

end Sys2Proof.Machine

open Sys2Proof Sys2Proof.Machine Sys2Proof.Safety

/-- Settles O21: each of the five is `writeReg` of its result. -/
theorem addImmediateCopyAndLogicSetNoFlag : Obligations.AddImmediateCopyAndLogicSetNoFlag := fun s x _ nn =>
  ⟨exec_addImm_eq s x nn ▸ completes_writeReg s x _, completes_writeReg s x _, completes_writeReg s x _,
    completes_writeReg s x _, completes_writeReg s x _⟩

/-- Settles O23: both orders are `writeFlagged` of the difference and the comparison. -/
theorem subtractionsSetNoBorrow : Obligations.SubtractionsSetNoBorrow := fun s x y =>
  ⟨exec_subReg_eq s x y ▸ completes_writeFlagged s x _ _, exec_subnReg_eq s x y ▸ completes_writeFlagged s x _ _⟩

/-- Settles O24: both shifts are `writeFlagged` of the shifted byte and the bit that fell out. -/
theorem shiftsMoveOneBitIntoVf : Obligations.ShiftsMoveOneBitIntoVf := fun s x y =>
  ⟨exec_shr_eq s x y ▸ completes_writeFlagged s x _ _, exec_shl_eq s x y ▸ completes_writeFlagged s x _ _⟩

/-- Settles O25: CXNN counts the draw, then is `writeReg` of the masked byte. -/
theorem randomIsTheDrawMasked : Obligations.RandomIsTheDrawMasked := by
  intro s x nn
  obtain ⟨t, hexec, hx, hregs, hpc, hbytes, hframe⟩ :=
    completes_writeReg s.countDraw x (Config.rand8 s.draws &&& nn)
  have hdraws : t.draws = s.draws + 1 := by rw [hframe]; rfl
  refine ⟨t, hexec, hx, ?_, hregs, hpc, hbytes, hdraws, ?_⟩
  · rw [hx, masked_and_not]
  · rw [hdraws]
    exact hframe

/-- Settles O43: FX07 is `writeReg` of DT, and the two stores write one timer each. -/
theorem timerMovesTouchOneTimer : Obligations.TimerMovesTouchOneTimer := fun s x =>
  ⟨completes_writeReg s x s.dt, ⟨_, rfl, rfl, pc_add_two_toNat s, fun _ => rfl, rfl⟩,
    ⟨_, rfl, rfl, pc_add_two_toNat s, fun _ => rfl, rfl⟩⟩
end

section
/-! SUPPORT. The statements on the index register and on memory (R52, R150 to R156). -/

namespace Sys2Proof.Machine

open Sys2Proof.Safety

/-! ### I as a number (R151, R152) -/

/-- R152: five times a byte stays below 65536. -/
theorem glyphAddress_toNat (b : Byte) : (glyphAddress b).toNat = 5 * b.toNat := by
  have hb := b.isLt
  simp only [glyphAddress, BitVec.toNat_mul, BitVec.toNat_setWidth, BitVec.ofNat_eq_ofNat, BitVec.toNat_ofNat]
  omega

theorem index_add_toNat (w : Word) (b : Byte) : (w + b.setWidth 16).toNat = (w.toNat + b.toNat) % 65536 := by
  have hb := b.isLt
  rw [BitVec.toNat_add, BitVec.toNat_setWidth]
  omega

/-! ### FX33 (R153) -/

/-- The state FX33 answers when its three bytes can be written. -/
def State.afterLdB (s : State) (x : Nibble) : State := (s.putBytes (indexBase s) (bcdDigits (s.reg x))).advance

section
variable {s : State} {x : Nibble}

theorem exec_ldB_inside (hlo : 0x200 ≤ indexBase s) (hhi : indexBase s + 2 ≤ 0xFFF) :
    exec (.ldB x) s = .next (s.afterLdB x) := by
  have hrange : indexBase s + (bcdDigits (s.reg x)).length ≤ 0x1000 := Nat.succ_le_succ hhi
  simp only [exec, execLdB, memWriteRange_inside hlo hrange, State.afterLdB]

theorem exec_ldB_protected (hlo : indexBase s < 0x200) :
    exec (.ldB x) s = .next (fatalState s (.memoryFault .protectedWrite (indexBase s))) := by
  simp only [exec, execLdB, memWriteRange_protected (List.cons_ne_nil _ _) hlo, takeFault_eq, bcdDigits]

theorem exec_ldB_outside (hlo : 0x200 ≤ indexBase s) (hhi : 0xFFF < indexBase s + 2) :
    exec (.ldB x) s = .next (fatalState s (.memoryFault .write (max (indexBase s) 0x1000))) := by
  have hrange : 0x1000 < indexBase s + (bcdDigits (s.reg x)).length := Nat.succ_lt_succ hhi
  have hne : bcdDigits (s.reg x) ≠ [] := List.cons_ne_nil _ _
  simp only [exec, execLdB, memWriteRange_outside hne hlo hrange, takeFault_eq]

theorem readByte_afterLdB_inside (hwf : s.memWf = true) (hhi : indexBase s + 2 ≤ 0xFFF) {k : Nat} (hk : k < 3) :
    (s.afterLdB x).readByte (indexBase s + k) = (bcdDigits (s.reg x))[k]? :=
  readByte_putBytes_inside hwf (Nat.succ_le_succ hhi) hk

theorem readByte_afterLdB_outside (hwf : s.memWf = true) (hhi : indexBase s + 2 ≤ 0xFFF) {a : Nat}
    (ha : a < indexBase s ∨ indexBase s + 2 < a) : (s.afterLdB x).readByte a = s.readByte a :=
  readByte_putBytes_outside hwf (Nat.succ_le_succ hhi) ha

/-! ### FX55 that completes (R154) -/

/-- An FX55 that leaves a running machine running has written its whole range. -/
theorem exec_stRegs_running {t : State} (h : exec (.stRegs x) s = .next t) (hrun : t.halted = false) :
    0x200 ≤ indexBase s ∧ indexBase s + x.toNat ≤ 0xFFF ∧ t = s.afterStRegs x := by
  obtain hlo | hlo := Nat.lt_or_ge (indexBase s) 0x200
  · rw [exec_stRegs_protected hlo] at h
    cases h
    cases hrun
  · obtain hhi | hhi := Nat.lt_or_ge 0xFFF (indexBase s + x.toNat)
    · rw [exec_stRegs_outside hlo hhi] at h
      cases h
      cases hrun
    · rw [exec_stRegs_inside hlo hhi] at h
      cases h
      exact ⟨hlo, hhi, rfl⟩

end

end Sys2Proof.Machine

open Sys2Proof Sys2Proof.Machine Sys2Proof.Safety

/-- Settles O27: both write I, and five times a byte does not wrap. -/
theorem indexLoadsSetOnlyI : Obligations.IndexLoadsSetOnlyI := fun s nnn x =>
  ⟨⟨_, rfl, absolute_toNat nnn, pc_add_two_toNat s, fun _ => rfl, rfl⟩,
    ⟨_, rfl, glyphAddress_toNat (s.reg x), pc_add_two_toNat s, fun _ => rfl, rfl⟩⟩

/-- Settles O28: I is written before VF, and both are computed from the old operands. -/
theorem indexAddSetsOverflow : Obligations.IndexAddSetsOverflow := by
  intro s x
  refine ⟨_, rfl, index_add_toNat s.i (s.reg x), ?_, fun k hk => ?_, pc_add_two_toNat s, fun _ => rfl, rfl⟩
  · rw [advance_reg, reg_setFlag, if_pos rfl, indexOverflowFlag_eq]
  · rw [advance_reg, reg_setFlag, if_neg (List.ne_of_not_mem_cons hk), setI_reg]

/-- Settles O29: the three digits are written whole, or the write faults at its first offending address. -/
theorem bcdStoresThreeDigitsOrFaults : Obligations.BcdStoresThreeDigitsOrFaults := by
  intro s x hwf
  refine ⟨fun hlo hhi => ?_, exec_ldB_protected, exec_ldB_outside⟩
  refine ⟨s.afterLdB x, exec_ldB_inside hlo hhi, readByte_afterLdB_inside hwf hhi (k := 0) (by decide),
    readByte_afterLdB_inside hwf hhi (k := 1) (by decide), readByte_afterLdB_inside hwf hhi (k := 2) (by decide),
    fun _ => readByte_afterLdB_outside hwf hhi, ?_, ?_⟩
  · rw [State.afterLdB, advance_pc, putBytes_pc, pc_add_two_toNat]
  · rw [State.afterLdB, putBytes_eq]
    rfl

/-- Settles O32: the load reads back, byte for byte, what the store that completed has written. -/
theorem storeThenLoadRoundTrips : Obligations.StoreThenLoadRoundTrips := by
  intro s t u x hwf _ hstore hrun hi hbytes
  obtain ⟨-, hhi, rfl⟩ := exec_stRegs_running hstore hrun
  have hbase : indexBase u = indexBase s := congrArg BitVec.toNat hi
  have ht : (s.afterStRegs x).i = indexAfterRange s x := rfl
  refine ⟨ht ▸ indexAfterRange_toNat s x, ?_⟩
  obtain ⟨-, hload, -⟩ := loadRegistersReadsTheRangeOrFaults u x
  obtain ⟨w, hexec, hregs, -, hwi, -⟩ := hload (hbase ▸ hhi)
  refine ⟨w, hexec, fun k hk => Option.some.inj ?_, BitVec.eq_of_toNat_eq ?_⟩
  · rw [hregs k hk, hbase, hbytes k.toNat hk, readByte_afterStRegs_inside hwf hhi hk]
  · rw [hwi, hbase, ht, indexAfterRange_toNat]

/-- Settles O33: the two cells at PC are the stored V[k] and V[k+1]. -/
theorem storedWordIsFetched : Obligations.StoredWordIsFetched := by
  intro s t u x k hwf _ hstore hrun hk hmem hfont hpc
  obtain ⟨-, hhi, rfl⟩ := exec_stRegs_running hstore hrun
  have hk1 : (k + 1).toNat = k.toNat + 1 := by
    have hx := x.isLt
    rw [BitVec.toNat_add]
    exact Nat.mod_eq_of_lt (by simp; omega)
  have hread (j : Nibble) (hj : j.toNat ≤ x.toNat) : u.readByte (indexBase s + j.toNat) = some (s.reg j) := by
    rw [readByte_congr hmem hfont, readByte_afterStRegs_inside hwf hhi hj]
  have hlo := hread (k + 1) (by omega)
  rw [hk1, ← Nat.add_assoc, ← hpc] at hlo
  exact ⟨_, fetch_of_readByte (hpc ▸ hread k hk.le) hlo, wordOfBytes_toNat _ _⟩
end

section
/-! SUPPORT. The statements on the keypad (R190 to R192, R236). -/

namespace Sys2Proof.Machine

open Sys2Proof.Safety

section
variable {s : State} {x : Nibble}

theorem exec_skp_fault (h : 15 < (s.reg x).toNat) : exec (.skp x) s = .next (fatalState s (.keyIndexFault (s.reg x))) := by
  simp only [exec, execSkp, keyOf_eq_none.2 h, takeFault_eq]

theorem exec_sknp_fault (h : 15 < (s.reg x).toNat) :
    exec (.sknp x) s = .next (fatalState s (.keyIndexFault (s.reg x))) := by
  simp only [exec, execSknp, keyOf_eq_none.2 h, takeFault_eq]

/-- R192: with a key down FX0A counts a draw, then is `writeReg` of the number of a key that is down. -/
theorem exec_ldVxK_key (h : ∃ k, s.keyDown k = true) :
    ∃ k, s.keyDown k = true ∧ exec (.ldVxK x) s = writeReg x (k.setWidth 8) s.countDraw := by
  obtain ⟨k, hk⟩ := h
  cases hkeys : pressedKeys s with
  | nil => exact absurd (pressedKeys_eq_nil.1 hkeys k) (by rw [hk]; decide)
  | cons j js =>
    have hmem := chooseKey_mem (Config.keyPick s.draws) j js
    rw [← hkeys] at hmem
    exact ⟨_, mem_pressedKeys.1 hmem, by simp only [exec, execLdVxK, hkeys, writeReg]⟩

end

end Sys2Proof.Machine

open Sys2Proof Sys2Proof.Machine Sys2Proof.Safety

/-- Settles O41: a value above 15 names no key. -/
theorem keySkipsFaultAboveFifteen : Obligations.KeySkipsFaultAboveFifteen := fun _ _ h =>
  ⟨exec_skp_fault h, exec_sknp_fault h⟩

/-- Settles O42: the choice among the pressed keys is one of them. -/
theorem awaitKeyWaitsOrStoresAPressedKey : Obligations.AwaitKeyWaitsOrStoresAPressedKey := by
  intro s x
  refine ⟨exec_ldVxK_no_key x, fun hkey => ?_⟩
  obtain ⟨k, hdown, hexec⟩ := exec_ldVxK_key (x := x) hkey
  obtain ⟨t, hwrite, hx, hregs, hpc, hbytes, hframe⟩ := completes_writeReg s.countDraw x (k.setWidth 8)
  refine ⟨t, hexec.trans hwrite, ⟨k, hdown, ?_⟩, hregs, hpc, hbytes, ?_⟩
  · rw [hx, BitVec.toNat_setWidth_of_le (by decide)]
  · have hdraws : t.draws = s.draws + 1 := by rw [hframe]; rfl
    rw [hdraws]
    exact hframe
end

section
/-! SUPPORT. The sprite draw (R171 to R173): the pixels of a sprite land on cells of their own, so the loop over them flips each
covered cell once and finds it as it was before the draw. -/

namespace Sys2Proof.Machine

open Sys2Proof.Safety

/-! ### Cells and coordinates (R172) -/

theorem sameCell_iff {p q : Nat × Nat} : sameCell p q = true ↔ p.1 % 64 = q.1 % 64 ∧ p.2 % 32 = q.2 % 32 := by
  simp [sameCell]

theorem cell_mod (fb : Framebuffer) (x y : Nat) : fb.cell (x % 64) (y % 32) = fb.cell x y := by
  simp only [Framebuffer.cell, Nat.mod_mod]

/-- Framebuffers that agree on every pixel are equal. -/
theorem Framebuffer.ext_cell {fb fb' : Framebuffer}
    (h : ∀ (px : Fin 64) (py : Fin 32), fb.cell px.val py.val = fb'.cell px.val py.val) : fb = fb' := by
  ext y hy x hx
  have hcell := h ⟨x, hx⟩ ⟨y, hy⟩
  simpa [Framebuffer.cell, Nat.mod_eq_of_lt hx, Nat.mod_eq_of_lt hy, hx] using hcell

/-! ### The pixels of a sprite (R171) -/

theorem mem_rowPixels {vx y : Nat} {b : Byte} {p : Nat × Nat} :
    p ∈ rowPixels vx y b ↔ ∃ c, c < 8 ∧ b.getLsbD (7 - c) = true ∧ p = (vx + c, y) := by
  simp only [rowPixels, List.mem_map, List.mem_filter, List.mem_range, and_assoc, eq_comm]

theorem mem_spritePixels {vx y : Nat} {rows : List Byte} {p : Nat × Nat} :
    p ∈ spritePixels vx y rows ↔
      ∃ r c b, rows[r]? = some b ∧ c < 8 ∧ b.getLsbD (7 - c) = true ∧ p = (vx + c, y + r) := by
  induction rows generalizing y with
  | nil => simp [spritePixels]
  | cons b bs ih =>
    rw [spritePixels, List.mem_append, mem_rowPixels, ih]
    constructor
    · rintro (⟨c, hc, hb, rfl⟩ | ⟨r, c, b', hr, hc, hb, rfl⟩)
      · exact ⟨0, c, b, rfl, hc, hb, rfl⟩
      · exact ⟨r + 1, c, b', hr, hc, hb, by rw [Nat.add_right_comm, Nat.add_assoc y]⟩
    · rintro ⟨_ | r, c, b', hr, hc, hb, rfl⟩
      · cases hr
        exact .inl ⟨c, hc, hb, rfl⟩
      · exact .inr ⟨r, c, b', hr, hc, hb, by rw [Nat.add_right_comm, Nat.add_assoc y]⟩

/-- The eight columns of a row are distinct cells, even where the row wraps. -/
theorem rowPixels_pairwise (vx y : Nat) (b : Byte) : (rowPixels vx y b).Pairwise fun p q => sameCell p q = false := by
  rw [rowPixels, List.pairwise_map]
  refine List.Pairwise.filter _ (List.pairwise_lt_range.imp_of_mem fun {c d} hc hd hlt => ?_)
  rw [List.mem_range] at hc hd
  rw [← Bool.not_eq_true, sameCell_iff]
  omega

/-- So are the pixels of up to 32 rows. -/
theorem spritePixels_pairwise {vx y : Nat} {rows : List Byte} (hlen : rows.length ≤ 32) :
    (spritePixels vx y rows).Pairwise fun p q => sameCell p q = false := by
  induction rows generalizing y with
  | nil => exact .nil
  | cons b bs ih =>
    rw [List.length_cons] at hlen
    refine List.pairwise_append.2 ⟨rowPixels_pairwise vx y b, ih (by omega), fun p hp q hq => ?_⟩
    obtain ⟨c, -, -, rfl⟩ := mem_rowPixels.1 hp
    obtain ⟨r, d, b', hr, -, -, rfl⟩ := mem_spritePixels.1 hq
    have hrlen : r < bs.length := (List.getElem?_eq_some_iff.1 hr).1
    rw [← Bool.not_eq_true, sameCell_iff]
    omega

/-! ### The loop over them -/

section
variable {ps : List (Nat × Nat)} (hps : ps.Pairwise fun p q => sameCell p q = false)
include hps

/-- At most one pixel lands on a cell, so it is flipped exactly when some pixel lands on it. -/
theorem countP_sameCell_odd (q : Nat × Nat) :
    ps.countP (fun p => sameCell p q) % 2 = 1 ↔ ∃ p ∈ ps, sameCell p q = true := by
  have hle : ps.countP (fun p => sameCell p q) ≤ 1 := by
    induction ps with
    | nil => simp
    | cons p ps ih =>
      obtain ⟨hp, hps⟩ := List.pairwise_cons.1 hps
      rw [List.countP_cons]
      by_cases hpq : sameCell p q = true
      · have hzero : ps.countP (fun p => sameCell p q) = 0 := List.countP_eq_zero.2 fun r hr hrq => by
          have hpr := hp r hr
          rw [sameCell_iff] at hpq hrq
          rw [← Bool.not_eq_true, sameCell_iff] at hpr
          omega
        rw [hzero, if_pos hpq]
      · rw [if_neg hpq]
        exact ih hps
  rw [← List.countP_pos_iff (p := fun p => sameCell p q)]
  omega

/-- No pixel before it has touched the cell a pixel lands on, so the collisions are those with the framebuffer before the draw. -/
theorem foldl_togglePixel_collision (acc : Framebuffer × Bool) :
    (ps.foldl togglePixel acc).2 = (acc.2 || ps.any fun p => acc.1.cell p.1 p.2) := by
  induction ps generalizing acc with
  | nil => simp
  | cons p ps ih =>
    obtain ⟨hp, hps⟩ := List.pairwise_cons.1 hps
    have huntouched : (ps.any fun q => (acc.1.toggle p.1 p.2).cell q.1 q.2) = ps.any fun q => acc.1.cell q.1 q.2 := by
      rw [Bool.eq_iff_iff, List.any_eq_true, List.any_eq_true]
      exact exists_congr fun q => and_congr_right fun hq => by rw [cell_toggle, hp q hq, Bool.xor_false]
    rw [List.foldl_cons, ih hps, List.any_cons, togglePixel, huntouched, Bool.or_assoc]

end

/-! ### DXYN (R171) -/

/-- The bytes are the N rows the sprite has at I. -/
def ReadsSprite (s : State) (n : Nibble) (rows : List Byte) : Prop :=
  rows.length = n.toNat ∧ ∀ r, r < n.toNat → rows[r]? = s.readByte (indexBase s + r)

/-- The state DXYN answers when its rows read as `rows`. -/
def State.afterDrw (s : State) (x y : Nibble) (rows : List Byte) : State :=
  (((s.setFb (drawSprite s.fb (s.reg x).toNat (s.reg y).toNat rows).1).setFlag
    (collisionFlag (drawSprite s.fb (s.reg x).toNat (s.reg y).toNat rows).2)).setDirty true).advance

section
variable {s : State} {x y n : Nibble} {rows : List Byte}

theorem memReadRange_sprite (h : spriteInMemory s n) :
    ∃ rows, memReadRange s (indexBase s) n.toNat = .ok rows ∧ ReadsSprite s n rows := by
  obtain h | h := h
  · exact ⟨[], by rw [h]; rfl, h.symm, fun r hr => absurd (h ▸ hr) (Nat.not_lt_zero r)⟩
  · exact memReadRange_inside h

theorem exec_drw_inside (x y : Nibble) (h : spriteInMemory s n) :
    ∃ rows, exec (.drw x y n) s = .next (s.afterDrw x y rows) ∧ ReadsSprite s n rows := by
  obtain ⟨rows, hread, hrows⟩ := memReadRange_sprite h
  exact ⟨rows, exec_drw_of_read hread, hrows⟩

theorem exec_drw_outside (h : ¬ spriteInMemory s n) :
    exec (.drw x y n) s = .next (fatalState s (.memoryFault .read (max (indexBase s) 0x1000))) := by
  rw [spriteInMemory, not_or, Nat.not_le] at h
  exact exec_drw_of_fault (memReadRange_outside h.1 h.2)

theorem ReadsSprite.length_le (h : ReadsSprite s n rows) : rows.length ≤ 32 := by
  have hn := n.isLt
  rw [h.1]
  omega

/-- The pixels of the rows read are the set sprite pixels of R171. -/
theorem ReadsSprite.mem_spritePixels_iff (h : ReadsSprite s n rows) {vx vy : Nat} {p : Nat × Nat} :
    p ∈ spritePixels vx vy rows ↔ ∃ r c, r < n.toNat ∧ c < 8 ∧ spriteBit s r c = true ∧ p = (vx + c, vy + r) := by
  obtain ⟨hlen, hbytes⟩ := h
  rw [mem_spritePixels]
  constructor
  · rintro ⟨r, c, b, hr, hc, hb, rfl⟩
    have hrn : r < n.toNat := hlen ▸ (List.getElem?_eq_some_iff.1 hr).1
    exact ⟨r, c, hrn, hc, by rw [spriteBit, ← hbytes r hrn, hr]; exact hb, rfl⟩
  · rintro ⟨r, c, hrn, hc, hb, rfl⟩
    have hr : rows[r]? = some rows[r] := List.getElem?_eq_getElem (hlen ▸ hrn)
    rw [spriteBit, ← hbytes r hrn, hr] at hb
    exact ⟨r, c, _, hr, hc, hb, rfl⟩

theorem ReadsSprite.covers_iff (h : ReadsSprite s n rows) (px : Fin 64) (py : Fin 32) :
    spriteCovers s x y n px.val py.val ↔
      ∃ p ∈ spritePixels (s.reg x).toNat (s.reg y).toNat rows, sameCell p (px.val, py.val) = true := by
  have hpx := Nat.mod_eq_of_lt px.isLt
  have hpy := Nat.mod_eq_of_lt py.isLt
  simp only [h.mem_spritePixels_iff, sameCell_iff, hpx, hpy]
  constructor
  · rintro ⟨r, c, hr, hc, hb, hx, hy⟩
    exact ⟨_, ⟨r, c, hr, hc, hb, rfl⟩, hx, hy⟩
  · rintro ⟨_, ⟨r, c, hr, hc, hb, rfl⟩, hx, hy⟩
    exact ⟨r, c, hr, hc, hb, hx, hy⟩

theorem ReadsSprite.hostPixel_covered (h : ReadsSprite s n rows) {px : Fin 64} {py : Fin 32}
    (hc : spriteCovers s x y n px.val py.val) : hostPixel (s.afterDrw x y rows) px py = !hostPixel s px py := by
  have hodd := (countP_sameCell_odd (spritePixels_pairwise h.length_le) _).2 ((h.covers_iff px py).1 hc)
  simp only [hostPixel_eq_cell]
  exact (cell_foldl_togglePixel _ _ _ _).trans (by rw [decide_eq_true hodd, Bool.xor_true])

theorem ReadsSprite.hostPixel_uncovered (h : ReadsSprite s n rows) {px : Fin 64} {py : Fin 32}
    (hc : ¬ spriteCovers s x y n px.val py.val) : hostPixel (s.afterDrw x y rows) px py = hostPixel s px py := by
  have heven := mt (countP_sameCell_odd (spritePixels_pairwise h.length_le) _).1 (mt (h.covers_iff px py).2 hc)
  simp only [hostPixel_eq_cell]
  exact (cell_foldl_togglePixel _ _ _ _).trans (by rw [decide_eq_false heven, Bool.xor_false])

theorem collisionFlag_eq_one_iff {hit : Bool} : collisionFlag hit = 1 ↔ hit = true := by
  cases hit <;> decide

theorem collisionFlag_eq (hit : Bool) : collisionFlag hit = 1 ∨ collisionFlag hit = 0 := by
  cases hit
  · exact .inr rfl
  · exact .inl rfl

/-- VF before the draw plays no part: the flag is written last (R133). -/
theorem afterDrw_reg (s : State) (x y : Nibble) (rows : List Byte) (k : Nibble) :
    (s.afterDrw x y rows).reg k =
      if k = 15 then collisionFlag (drawSprite s.fb (s.reg x).toNat (s.reg y).toNat rows).2 else s.reg k := by
  rw [State.afterDrw, advance_reg, setDirty_reg, reg_setFlag, setFb_reg]

theorem ReadsSprite.collision_iff (h : ReadsSprite s n rows) :
    (s.afterDrw x y rows).reg 15 = 1 ↔ ∃ px py, spriteCovers s x y n px.val py.val ∧ hostPixel s px py = true := by
  rw [afterDrw_reg, if_pos rfl, collisionFlag_eq_one_iff, drawSprite,
    foldl_togglePixel_collision (spritePixels_pairwise h.length_le), Bool.false_or, List.any_eq_true]
  simp only [h.covers_iff, hostPixel_eq_cell]
  constructor
  · rintro ⟨p, hp, hcell⟩
    have hx : p.1 % 64 < 64 := Nat.mod_lt _ (by decide)
    have hy : p.2 % 32 < 32 := Nat.mod_lt _ (by decide)
    refine ⟨⟨p.1 % 64, hx⟩, ⟨p.2 % 32, hy⟩, ⟨p, hp, sameCell_iff.2 ?_⟩, (cell_mod _ _ _).trans hcell⟩
    exact ⟨(Nat.mod_mod _ _).symm, (Nat.mod_mod _ _).symm⟩
  · rintro ⟨px, py, ⟨p, hp, hsame⟩, hcell⟩
    obtain ⟨hx, hy⟩ := sameCell_iff.1 hsame
    exact ⟨p, hp, by rw [← cell_mod, hx, hy, cell_mod]; exact hcell⟩

end

/-- The sprite and its place are those of I, V[X], V[Y] and the rows. -/
theorem spriteCovers_congr {s u : State} {x y n : Nibble} (hi : u.i = s.i) (hx : u.reg x = s.reg x) (hy : u.reg y = s.reg y)
    (hbytes : ∀ r, r < n.toNat → u.readByte (indexBase s + r) = s.readByte (indexBase s + r)) (px py : Nat) :
    spriteCovers u x y n px py ↔ spriteCovers s x y n px py := by
  have hbase : indexBase u = indexBase s := congrArg BitVec.toNat hi
  have hbit (r c : Nat) (hr : r < n.toNat) : spriteBit u r c = spriteBit s r c := by
    rw [spriteBit, spriteBit, hbase, hbytes r hr]
  simp only [spriteCovers, hx, hy]
  exact exists_congr fun r => exists_congr fun c => and_congr_right fun hr => by rw [hbit r c hr]

end Sys2Proof.Machine

open Sys2Proof Sys2Proof.Machine Sys2Proof.Safety

/-- Settles O37: the pixels of a sprite land on distinct cells, so the loop flips each covered pixel once. -/
theorem drawFlipsTheCoveredPixels : Obligations.DrawFlipsTheCoveredPixels := by
  intro s x y n hin
  obtain ⟨rows, hexec, hrows⟩ := exec_drw_inside x y hin
  refine ⟨s.afterDrw x y rows, hexec, fun px py => hrows.hostPixel_covered, fun px py => hrows.hostPixel_uncovered, ?_,
    hrows.collision_iff, fun k hk => ?_, rfl, pc_add_two_toNat s, fun _ => rfl, rfl⟩
  · rw [afterDrw_reg, if_pos rfl]
    exact collisionFlag_eq _
  · rw [afterDrw_reg, if_neg (List.ne_of_not_mem_cons hk)]

/-- Settles O38: the read of the rows faults at the first one outside. -/
theorem drawOutsideMemoryFaults : Obligations.DrawOutsideMemoryFaults := fun _ _ _ _ => exec_drw_outside

/-- Settles O39: both draws cover the same pixels, so each is flipped twice or not at all. -/
theorem drawingTwiceRestoresTheFramebuffer : Obligations.DrawingTwiceRestoresTheFramebuffer := by
  intro s t u x y n hin hdraw hfb hi hx hy hbytes
  obtain ⟨t', ht', hflip, hkeep, -⟩ := drawFlipsTheCoveredPixels s x y n hin
  rw [ht'] at hdraw
  cases hdraw
  have hcovers (px py : Nat) := spriteCovers_congr hi hx hy hbytes px py
  have hpixel (px : Fin 64) (py : Fin 32) : hostPixel u px py = hostPixel t px py := by
    rw [hostPixel_eq_cell, hostPixel_eq_cell, hfb]
  have hinu : spriteInMemory u n := by
    rwa [spriteInMemory, show indexBase u = indexBase s from congrArg BitVec.toNat hi]
  obtain ⟨w, hw, hflip', hkeep', -, hvf, -⟩ := drawFlipsTheCoveredPixels u x y n hinu
  refine ⟨w, hw, Framebuffer.ext_cell fun px py => ?_, hvf.trans ?_⟩
  · rw [← hostPixel_eq_cell, ← hostPixel_eq_cell]
    by_cases hc : spriteCovers s x y n px.val py.val
    · rw [hflip' px py ((hcovers _ _).2 hc), hpixel, hflip px py hc, Bool.not_not]
    · rw [hkeep' px py (mt (hcovers _ _).1 hc), hpixel, hkeep px py hc]
  · refine exists_congr fun px => exists_congr fun py => ?_
    rw [hcovers]
    exact and_congr_right fun hc => by rw [hpixel, hflip px py hc, Bool.not_eq_true']
end
